-- ==== Sys2Proof/Word.lean ====
section
/-! DEFINITION. The plain data words of the pulse engine: bytes, line levels, frame lengths, pulse records, packets. -/

namespace Sys2Proof

/-- One byte of a frame (10_state.md R27). -/
abbrev Byte := BitVec 8

/-- A 32-bit register value, data operand or duration (10_state.md R41, 30_encoding.md R84, R91). -/
abbrev Word := BitVec 32

/-- A 64-bit time: microseconds of `T`, or milliseconds of `NOW_MS` (00_scope.md R10). -/
abbrev Time := BitVec 64

/-- The level of the bus line: 0 low, 1 high (10_state.md R26, 30_encoding.md R84). -/
inductive Level where
  | low
  | high
deriving DecidableEq, Repr, Inhabited

/-- Level 1 is high and level 0 is low (10_state.md R26). -/
def Level.ofBit : Bool → Level
  | false => .low
  | true => .high

/-- The bit of a level (10_state.md R26). -/
def Level.bit : Level → Bool
  | .low => false
  | .high => true

/-- The two lengths of a raw packet, L ∈ {9, 12} (00_scope.md R8, 30_encoding.md R82); the one-bit length flag of
R92 encodes 9 as 0 and 12 as 1. -/
inductive FrameLen where
  | short
  | long
deriving DecidableEq, Repr, Inhabited

/-- L as a number of bytes (30_encoding.md R82). -/
def FrameLen.bytes : FrameLen → Nat
  | .short => 9
  | .long => 12

/-- The length flag A of TX_ENQUEUE: 0 is L = 9, 1 is L = 12 (30_encoding.md R92). -/
def FrameLen.ofFlag : Bool → FrameLen
  | false => .short
  | true => .long

/-- The length flag of a length (30_encoding.md R92). -/
def FrameLen.flag : FrameLen → Bool
  | .short => false
  | .long => true

/-- A pulse record: two half-periods, each a level and an unsigned length in µs (10_state.md R26, 30_encoding.md R84). -/
structure PulseRecord where
  level0 : Level
  dur0Us : Word
  level1 : Level
  dur1Us : Word
deriving DecidableEq, Repr, Inhabited

/-- Twelve bytes: the packet buffer `fr_buf[0..11]` and the bytes of a packet (10_state.md R27, R35). -/
abbrev Bytes12 := Vector Byte 12

/-- Twelve zero bytes. -/
def zeroBytes : Bytes12 := Vector.replicate 12 0

/-- An outbound packet: the length and twelve bytes, of which those at index ≥ L are 0 (10_state.md R35). -/
structure Packet where
  len : FrameLen
  bytes : Bytes12
deriving DecidableEq, Repr, Inhabited

/-- The packet whose length flag and bytes are all 0: what `tx_pkt <- 0` stores (10_state.md R37, 43_transmit.md R207).
DEDUCED (assumption 7): a packet is stored as its length flag and 12 bytes (20_memory.md R71), so 0 is flag 0. -/
def Packet.zero : Packet := ⟨.short, zeroBytes⟩

end Sys2Proof
end

