-- ==== Sys2Proof/Syntax.lean ====
section
/-! DEFINITION. The operations of the pulse engine, one constructor per row of spec/opcode_table.json, and the raw form in
which an operation reaches the block. -/

namespace Sys2Proof

/-- One operation: the ten command words of 30_encoding.md R90, an illegal command word (44_host.md R238), and the five
symbols that the framer executes the way a core executes instructions (00_scope.md R14, 30_encoding.md R86). -/
inductive Instr where
  /-- EDGE: one bus edge, `level` the pin level after it (40_capture.md R110). -/
  | edge (level : Level)
  /-- RX_POP: execute the next pulse record (41_framer.md R144). -/
  | rxPop
  /-- RX_IDLE_CHECK: the timing-based frame-end detector (41_framer.md R150). -/
  | rxIdleCheck
  /-- TX_ENQUEUE: hand one outbound packet to the block (43_transmit.md R192). -/
  | txEnqueue (len : FrameLen) (pkt : Bytes12)
  /-- TX_TICK: one scheduler tick (43_transmit.md R196). -/
  | txTick
  /-- TX_SEGMENT: drive the next segment of the burst (43_transmit.md R204). -/
  | txSegment
  /-- TX_END: end the burst (43_transmit.md R207). -/
  | txEnd
  /-- REG_READ (44_host.md R230). -/
  | regRead (ridx : BitVec 4)
  /-- REG_WRITE (44_host.md R232). -/
  | regWrite (ridx : BitVec 4) (d : Word)
  /-- RESET (44_host.md R236). -/
  | reset
  /-- ILLEGAL: a command word that 30_encoding.md R93 makes illegal (44_host.md R238). -/
  | illegal (word : Word)
  /-- Symbol code 0 (41_framer.md R149). -/
  | invalid
  /-- Symbol code 1 (41_framer.md R146). -/
  | bit0
  /-- Symbol code 2 (41_framer.md R147). -/
  | bit1
  /-- Symbol code 3 (41_framer.md R145). -/
  | preamble
  /-- Symbol code 4 (41_framer.md R148). -/
  | idle
deriving DecidableEq, Repr

/-- What reaches the decoder: a 32-bit command word with the two data operands that travel beside it (30_encoding.md R89,
R91; the decoder looks only at the operand its OPC selects, R94), or a 3-bit symbol code (R86). -/
inductive RawOp where
  | command (word : Word) (d : Word) (pkt : Bytes12)
  | symbol (code : BitVec 3)
deriving DecidableEq, Repr

/-- The four agents of the block (10_state.md R20). -/
inductive Agent where
  | cap
  | rxw
  | txw
  | host
deriving DecidableEq, Repr

/-- Which agent performs an operation (30_encoding.md R90; the framer's symbols are RXW's, 10_state.md R20; an illegal
word is HOST's, 44_host.md R238). -/
def Instr.agent : Instr → Agent
  | .edge _ => .cap
  | .rxPop => .rxw
  | .rxIdleCheck => .rxw
  | .txEnqueue _ _ => .host
  | .txTick => .txw
  | .txSegment => .txw
  | .txEnd => .txw
  | .regRead _ => .host
  | .regWrite _ _ => .host
  | .reset => .host
  | .illegal _ => .host
  | .invalid => .rxw
  | .bit0 => .rxw
  | .bit1 => .rxw
  | .preamble => .rxw
  | .idle => .rxw

end Sys2Proof
end

