-- ==== Sys2Proof/Decode.lean ====
section
/-! DEFINITION. The decoder of command words and symbol codes, the encoder, and the words of opcode_table.json. -/

namespace Sys2Proof

/-! ## The fields of a command word (30_encoding.md R89) -/

/-- OPC, bits 7:0. -/
def opcField (w : Word) : BitVec 8 := w.extractLsb' 0 8
/-- A, bit 8. -/
def aField (w : Word) : Bool := w.getLsbD 8
/-- RIDX, bits 12:9. -/
def ridxField (w : Word) : BitVec 4 := w.extractLsb' 9 4
/-- RSV, bits 31:13. -/
def rsvField (w : Word) : BitVec 19 := w.extractLsb' 13 19

/-- R93: a command word is illegal if its OPC is 0x00 or 0x0B–0xFF, if its RSV bits are not all 0, or if a field its
operation does not use is not 0. A is used by EDGE and TX_ENQUEUE, RIDX by REG_READ and REG_WRITE (R90, R238). -/
def illegalWord (w : Word) : Bool :=
  let opc := (opcField w).toNat
  opc == 0x00 || decide (0x0B ≤ opc) || rsvField w != 0#19
    || (aField w && opc != 0x01 && opc != 0x04)
    || (ridxField w != 0#4 && opc != 0x08 && opc != 0x09)

/-- The only input the decoder rejects: a symbol code that has no rule (30_encoding.md R87). -/
inductive DecodeError where
  | reservedSymbol (code : BitVec 3)
deriving DecidableEq, Repr

/-- A word is its operation only where the fields that operation does not use are 0; else it is illegal (R89, R93). -/
def orIllegal (w : Word) (unusedAreZero : Bool) (i : Instr) : Instr :=
  if unusedAreZero then i else .illegal w

/-- Decode a command word: the table of 30_encoding.md R90, with the operands of R91 and R92. An illegal word is the
operation ILLEGAL (R93). -/
def decodeCommand (w d : Word) (pkt : Bytes12) : Instr :=
  let a := aField w
  let ridx := ridxField w
  if rsvField w != 0#19 then .illegal w else
  match (opcField w).toNat with
  | 0x01 => orIllegal w (ridx == 0#4) (.edge (Level.ofBit a))
  | 0x02 => orIllegal w (!a && ridx == 0#4) .rxPop
  | 0x03 => orIllegal w (!a && ridx == 0#4) .rxIdleCheck
  | 0x04 => orIllegal w (ridx == 0#4) (.txEnqueue (FrameLen.ofFlag a) pkt)
  | 0x05 => orIllegal w (!a && ridx == 0#4) .txTick
  | 0x06 => orIllegal w (!a && ridx == 0#4) .txSegment
  | 0x07 => orIllegal w (!a && ridx == 0#4) .txEnd
  | 0x08 => orIllegal w (!a) (.regRead ridx)
  | 0x09 => orIllegal w (!a) (.regWrite ridx d)
  | 0x0A => orIllegal w (!a && ridx == 0#4) .reset
  | _ => .illegal w

/-- Decode a symbol code (30_encoding.md R86); codes 5, 6 and 7 are refused (R87). -/
def decodeSymbol (code : BitVec 3) : Except DecodeError Instr :=
  match code.toNat with
  | 0 => .ok .invalid
  | 1 => .ok .bit0
  | 2 => .ok .bit1
  | 3 => .ok .preamble
  | 4 => .ok .idle
  | _ => .error (.reservedSymbol code)

/-- Decode whatever reaches the block. -/
def decode : RawOp → Except DecodeError Instr
  | .command w d pkt => .ok (decodeCommand w d pkt)
  | .symbol code => decodeSymbol code

/-! ## The encoder -/

/-- A command word from its fields, the RSV bits 0 (30_encoding.md R89). -/
def commandWord (opc : BitVec 8) (a : Bool) (ridx : BitVec 4) : Word :=
  ((0#19 ++ ridx) ++ BitVec.ofBool a) ++ opc

/-- A command with no data operand: the operand ports are 0. -/
def plainCommand (opc : BitVec 8) (a : Bool) (ridx : BitVec 4) : RawOp :=
  .command (commandWord opc a ridx) 0 zeroBytes

/-- The words of an operation (30_encoding.md R86, R89–R92). -/
def encode : Instr → RawOp
  | .edge level => plainCommand 0x01 level.bit 0
  | .rxPop => plainCommand 0x02 false 0
  | .rxIdleCheck => plainCommand 0x03 false 0
  | .txEnqueue len pkt => .command (commandWord 0x04 len.flag 0) 0 pkt
  | .txTick => plainCommand 0x05 false 0
  | .txSegment => plainCommand 0x06 false 0
  | .txEnd => plainCommand 0x07 false 0
  | .regRead ridx => plainCommand 0x08 false ridx
  | .regWrite ridx d => .command (commandWord 0x09 false ridx) d zeroBytes
  | .reset => plainCommand 0x0A false 0
  | .illegal w => .command w 0 zeroBytes
  | .invalid => .symbol 0
  | .bit0 => .symbol 1
  | .bit1 => .symbol 2
  | .preamble => .symbol 3
  | .idle => .symbol 4

/-! ## The words of opcode_table.json -/

/-- The operation whose bits are `w`, numbered as opcode_table.json numbers them. A row of at most 8 bits is a symbol (SYM3,
a 3-bit code in one byte); any other is a command word, with the data operand that travels beside it (30_encoding.md R94) in
the bits above it: D in bits 63:32, byte i of PKT in bits 39+8i:32+8i (assumption 3). Bits from `nbits` up are 0. -/
def rawOfTableWord (nbits w : Nat) : Option RawOp :=
  let v := w % 2 ^ nbits
  if nbits ≤ 8 then
    if v < 8 then some (.symbol (BitVec.ofNat 3 v)) else none
  else
    some (.command (BitVec.ofNat 32 v) (BitVec.ofNat 32 (v / 2 ^ 32))
      (Vector.ofFn fun i : Fin 12 => BitVec.ofNat 8 (v / 2 ^ (32 + 8 * i.val))))

/-- The operation the decoder reads from the bits `w` of an `nbits`-bit row; `none` where it refuses. -/
def decodeTableWord (nbits w : Nat) : Option Instr :=
  (rawOfTableWord nbits w).bind fun op =>
    match decode op with
    | .ok i => some i
    | .error _ => none

end Sys2Proof
end

