-- ==== Sys2Proof/Machine/State.lean ====
section
/-! DEFINITION. The state of the pulse engine (10_state.md), its outputs, the reasons a step can stop, and the state after
power-on. -/

namespace Sys2Proof.Machine

/-- The bus mode: 0 RECEIVE, 1 TRANSMIT (10_state.md R24). -/
inductive BusMode where
  | receive
  | transmit
deriving DecidableEq, Repr, Inhabited

/-- The state of the block's line driver (10_state.md R40). -/
inductive BusDrive where
  | released
  | low
  | high
deriving DecidableEq, Repr, Inhabited

/-- The source of a frame: 0 Unknown, 1 Heater, 2 Controller, 3 Local (10_state.md R29). -/
inductive Source where
  | unknown
  | heater
  | controller
  | localOrigin
deriving DecidableEq, Repr, Inhabited

/-- The diagnostic codes 1–7 (60_exceptions.md R251). The reserved codes 0 and 8–15 are never emitted. -/
inductive DiagCode where
  | badLength
  | badChecksum
  | overlong
  | invalidPulse
  | txqOverflow
  | passiveBlocked
  | illegalCmd
deriving DecidableEq, Repr, Inhabited

/-- The trigger codes 0–5 (60_exceptions.md R252). The reserved codes 6–15 are never emitted. -/
inductive Trigger where
  | none
  | preamble
  | idle
  | synthIdle
  | bit
  | invalid
deriving DecidableEq, Repr, Inhabited

/-- One output event (10_state.md R45, R46; 60_exceptions.md R251). -/
inductive Event where
  /-- A validated frame: its bytes after polarity correction, its source and its frame time. -/
  | frame (len : FrameLen) (bytes : List Byte) (src : Source) (timeMs : Time)
  /-- A diagnostic. -/
  | diag (code : DiagCode) (trig : Trigger) (len : BitVec 4)
  /-- The start of one transmit segment. -/
  | seg (level : Level) (durUs : Nat)
  /-- The line returns to input pull-up. -/
  | release
  /-- The answer to a REG_READ. -/
  | regValue (v : Word)
deriving DecidableEq, Repr

/-- An event with the value of `T` at the step that emits it (10_state.md R45). -/
structure Stamped where
  stamp : Time
  event : Event
deriving DecidableEq, Repr

/-- One entry of the agenda: what the scheduler and TIME do next (20_memory.md R72; 30_encoding.md R95, R96). -/
inductive AgendaItem where
  /-- An agent is offered one step: the operation this word or symbol code stands for. -/
  | offer (op : RawOp)
  /-- The pseudo-instruction WAIT n: TIME advances `T` by n µs. -/
  | wait (us : Nat)
  /-- The `@t` of a line: TIME advances `T` to t. -/
  | atTime (t : Nat)
  /-- The pseudo-instruction RX_DRAIN: RX_POP, repeated while the ring holds a record. -/
  | rxDrain
  /-- The pseudo-instruction TX_RUN: TX_SEGMENT at each deadline, then TX_END. -/
  | txRun
deriving DecidableEq, Repr

/-- The state of the block: every element of 10_state.md, and `agenda`, the model's own field. -/
structure State where
  /-- `T`, µs (10_state.md R22). -/
  timeUs : Time
  /-- `last_edge` (R23). -/
  lastEdge : Word
  /-- `mode` (R24). -/
  mode : BusMode
  /-- `pend_valid` (R25). -/
  pendValid : Bool
  /-- `pend_dur` (R25). -/
  pendDur : Word
  /-- `pq_buf`: the entries written since the last reset, by index (R26, R48). -/
  pqBuf : List (Nat × PulseRecord)
  /-- `pq_head` (R26). -/
  pqHead : Nat
  /-- `pq_count` (R26). -/
  pqCount : Nat
  /-- `fr_buf[0..11]` (R27). -/
  frBuf : Bytes12
  /-- `fr_len` (R27). -/
  frLen : BitVec 4
  /-- `fr_cur` (R28). -/
  frCur : Byte
  /-- `fr_bidx` (R28). -/
  frBidx : BitVec 3
  /-- `fr_src` (R29). -/
  frSrc : Source
  /-- `fr_started` (R30). -/
  frStarted : Bool
  /-- `fr_finalized` (R31). -/
  frFinalized : Bool
  /-- `fr_time_ms` (R32). -/
  frTimeMs : Time
  /-- `ctrl_known` (R33). -/
  ctrlKnown : Bool
  /-- `last_ctrl_ms` (R33). -/
  lastCtrlMs : Time
  /-- `last_heater_ms` (R34). -/
  lastHeaterMs : Time
  /-- `txq_buf`: the entries written since the last reset, by index (R35, R48). -/
  txqBuf : List (Nat × Packet)
  /-- `txq_head` (R35). -/
  txqHead : Nat
  /-- `txq_count` (R35). -/
  txqCount : Nat
  /-- `tx_notify` (R36). -/
  txNotify : Bool
  /-- `tx_pkt` (R37). -/
  txPkt : Packet
  /-- `tx_nseg` (R37). -/
  txNseg : BitVec 16
  /-- `tx_seg` (R37). -/
  txSeg : BitVec 16
  /-- `tx_deadline`, µs (R37). -/
  txDeadline : Time
  /-- `tx_ever` (R38). -/
  txEver : Bool
  /-- `last_tx_end_us` (R38). -/
  lastTxEndUs : Time
  /-- `passive` (R39). -/
  passive : Bool
  /-- `bus_drive` (R40). -/
  busDrive : BusDrive
  /-- The output history, oldest event first (R45). -/
  history : List Stamped
  /-- The MODEL's own field, no state of the block: the scheduler's and TIME's next actions, first one first (assumption 1). -/
  agenda : List AgendaItem
deriving DecidableEq, Repr

/-- The reasons for which the machine stops with a fault: none. "No operation raises a trap" (60_exceptions.md R250), and a
step that is not enabled "is never a fault" (00_scope.md R13). -/
inductive Fault where
deriving DecidableEq, Repr

/-- The reasons for which a step is refused. -/
inductive Refusal where
  /-- An operation that has no meaning yet; no arm of `exec` answers so in this model. Safe: the machine stops. -/
  | notModelled (mnemonic : String)
  /-- A symbol code 5, 6 or 7 on the agenda, refused by the decoder: a model "has no rule for it and must refuse it"
  (30_encoding.md R87). Safe: it is what the spec says. -/
  | reservedSymbol (code : BitVec 3)
deriving DecidableEq, Repr

/-- Power-on (44_host.md R237): the values of 10_state.md R48 with `T` = 0, no output yet, and nothing on the agenda. -/
def State.reset : State where
  timeUs := 0
  lastEdge := 0
  mode := .receive
  pendValid := false
  pendDur := 0
  pqBuf := []
  pqHead := 0
  pqCount := 0
  frBuf := zeroBytes
  frLen := 0
  frCur := 0
  frBidx := 0
  frSrc := .unknown
  frStarted := false
  frFinalized := false
  frTimeMs := 0
  ctrlKnown := false
  lastCtrlMs := 0
  lastHeaterMs := 0
  txqBuf := []
  txqHead := 0
  txqCount := 0
  txNotify := false
  txPkt := Packet.zero
  txNseg := 0
  txSeg := 0
  txDeadline := 0
  txEver := false
  lastTxEndUs := 0
  passive := true
  busDrive := .released
  history := []
  agenda := []

end Sys2Proof.Machine
end

