-- ==== Sys2Proof/Machine/Checksum.lean ====
section
/-! DEFINITION. The checksum validator: the pure functions of 42_checksum.md. -/

namespace Sys2Proof.Machine

open Sys2Proof

/-- The bytes CHECKSUM sums: bytes 0..10 of a long frame, bytes 1..7 of a short one (42_checksum.md R170). -/
def summedBytes (buf : List Byte) : FrameLen → List Byte
  | .long => buf.take 11
  | .short => (buf.drop 1).take 7

/-- `CHECKSUM(buf, L)`: the sum, taken in integers, modulo 256 (R170). -/
def checksum (buf : List Byte) (len : FrameLen) : Byte :=
  BitVec.ofNat 8 ((summedBytes buf len).map BitVec.toNat).sum

/-- The stored checksum byte, `buf[L-1]` (30_encoding.md R82). -/
def checkByte (buf : List Byte) (len : FrameLen) : Byte := buf.getD (len.bytes - 1) 0

/-- `COMPLEMENT(buf, L)`: every one of the L bytes complemented (R171). -/
def complement (buf : List Byte) (len : FrameLen) : List Byte := (buf.take len.bytes).map (fun b => ~~~b)

/-- The two results of VALIDATE that accept a candidate (R172). -/
inductive Origin where
  | controller
  | heater
deriving DecidableEq, Repr

/-- The `fr_src` value of an origin (R176). -/
def Origin.source : Origin → Source
  | .controller => .controller
  | .heater => .heater

/-- `VALIDATE(buf, L)`: as captured, then inverted; `none` is INVALID (R172). -/
def validate (buf : List Byte) (len : FrameLen) : Option Origin :=
  if checksum buf len = checkByte buf len then some .controller
  else
    let nb := complement buf len
    if checksum nb len = checkByte nb len then some .heater else none

/-- `fr_buf[0..L-1] <- COMPLEMENT(fr_buf, L)`: the first L bytes complemented, the others kept (R176). -/
def complementBuffer (buf : Bytes12) (len : FrameLen) : Bytes12 :=
  Vector.ofFn fun i : Fin 12 => if i.val < len.bytes then ~~~buf[i] else buf[i]

/-- The first L bytes of the packet buffer: `fr_buf[0..L-1]` (R176). -/
def frameBytes (buf : Bytes12) (len : FrameLen) : List Byte := buf.toList.take len.bytes

end Sys2Proof.Machine
end

