-- ==== Sys2Proof/Config.lean ====
section
/-! DEFINITION. The named parameters of 00_scope.md R6–R9 at the values this hardware gives them, and the values the spec
leaves open (opaque: nothing can be proved about them). -/

namespace Sys2Proof.Config

/-! ## Receive timing, in µs (00_scope.md R6) -/

/-- TOL_US. -/
def tolUs : Nat := 600
/-- NOM_PRE_HIGH_US. -/
def nomPreHighUs : Nat := 5000
/-- NOM_LONG_HIGH_US. -/
def nomLongHighUs : Nat := 3000
/-- NOM_SHORT_HIGH_US. -/
def nomShortHighUs : Nat := 1000
/-- NOM_BIT_LOW_US. -/
def nomBitLowUs : Nat := 1000
/-- IDLE_END_US. -/
def idleEndUs : Nat := 50000
/-- RX_IDLE_US. -/
def rxIdleUs : Nat := 50000
/-- RX_POP_TIMEOUT_US. -/
def rxPopTimeoutUs : Nat := 120000
/-- MIN_INVALID_RESET_LEN, in bytes. -/
def minInvalidResetLen : Nat := 9

/-! ## Transmit waveform, in µs, and the repeat count (00_scope.md R7) -/

/-- N_REPEATS. -/
def nRepeats : Nat := 8
/-- TX_PRE_LOW_US. -/
def txPreLowUs : Nat := 9000
/-- TX_PRE_HIGH_US. -/
def txPreHighUs : Nat := 5000
/-- TX_BIT_LOW_US. -/
def txBitLowUs : Nat := 1000
/-- TX_BIT1_HIGH_US. -/
def txBit1HighUs : Nat := 3000
/-- TX_BIT0_HIGH_US. -/
def txBit0HighUs : Nat := 1000
/-- TX_GAP_LOW_US. -/
def txGapLowUs : Nat := 1000
/-- TX_GAP_HIGH_US. -/
def txGapHighUs : Nat := 100000
/-- TX_TRAIL_LOW_US. -/
def txTrailLowUs : Nat := 1000
/-- TX_TRAIL_HIGH_US. -/
def txTrailHighUs : Nat := 250000

/-! ## Capacities (00_scope.md R8) -/

/-- PQ_CAP, in records. -/
def pqCap : Nat := 2048
/-- TXQ_CAP, in packets. -/
def txqCap : Nat := 8
/-- FR_MAX_LEN, in bytes. -/
def frMaxLen : Nat := 12

/-! ## Scheduler, in ms (00_scope.md R9) -/

/-- THROTTLE_MS. -/
def throttleMs : Nat := 10000
/-- CTRL_PERIOD_MS. -/
def ctrlPeriodMs : Nat := 60000
/-- CTRL_TIMEOUT_MS. -/
def ctrlTimeoutMs : Nat := 90000
/-- TX_EST_MS. -/
def txEstMs : Nat := 4142
/-- TX_TICK_MS. -/
def txTickMs : Nat := 1500
/-- HEATER_OFFLINE_MS. -/
def heaterOfflineMs : Nat := 30000

/-! ## Open values -/

/-- What a `pq_buf` entry holds that nothing has written since power-on or RESET: "unspecified. No rule reads an entry"
(10_state.md R48). A free value (assumption 5). -/
opaque unspecifiedRecord : Nat → PulseRecord

/-- The same for a `txq_buf` entry (10_state.md R48). A free value (assumption 5). -/
opaque unspecifiedPacket : Nat → Packet

/-- `tx_deadline + dur` when the sum leaves the 64-bit range: 00_scope.md R11 says that time arithmetic never wraps
within a model run and gives no value. A free value of the deadline and the duration (assumption 6). -/
opaque deadlineBeyondRange : Time → Nat → Time

/-- The level on the wire when the block drives the first level and another device drives the second one: "any value"
(93_implementation_defined.md section 3, 70_reset_and_hazards.md R293). A free value (assumption 9). -/
opaque contendedLevel : Level → Level → Level

end Sys2Proof.Config
end

