-- ==== Sys2Proof/Machine/Flags.lean ====
section
/-! DEFINITION. The values the block computes from its state: the times, the codes of its enumerations, HEATER_OFFLINE, the
STATUS word and the diagnostic word. -/

namespace Sys2Proof.Machine

open Sys2Proof

/-! ## Times -/

/-- `NOW_MS = floor(T / 1000)` (00_scope.md R10). -/
def nowMs (s : State) : Time := s.timeUs / 1000#64

/-- `DUR(T) = (T[31:0] - last_edge) mod 2^32` (40_capture.md R111). -/
def durSinceEdge (s : State) : Word := s.timeUs.setWidth 32 - s.lastEdge

/-- The time from `past` to `now`, exact: `-` does not wrap here (00_scope.md R11). -/
def elapsed (now past : Time) : Int := (now.toNat : Int) - (past.toNat : Int)

/-- `HEATER_OFFLINE = (NOW_MS - last_heater_ms ≥ HEATER_OFFLINE_MS)` (10_state.md R47). -/
def heaterOffline (s : State) : Bool :=
  decide ((Config.heaterOfflineMs : Int) ≤ elapsed (nowMs s) s.lastHeaterMs)

/-! ## Codes -/

/-- The mode bit (10_state.md R24). -/
def BusMode.bit : BusMode → Bool
  | .receive => false
  | .transmit => true

/-- The 2-bit source code (10_state.md R29). -/
def Source.code : Source → BitVec 2
  | .unknown => 0
  | .heater => 1
  | .controller => 2
  | .localOrigin => 3

/-- The 4-bit diagnostic code (60_exceptions.md R251). -/
def DiagCode.code : DiagCode → BitVec 4
  | .badLength => 1
  | .badChecksum => 2
  | .overlong => 3
  | .invalidPulse => 4
  | .txqOverflow => 5
  | .passiveBlocked => 6
  | .illegalCmd => 7

/-- The 4-bit trigger code (60_exceptions.md R252). -/
def Trigger.code : Trigger → BitVec 4
  | .none => 0
  | .preamble => 1
  | .idle => 2
  | .synthIdle => 3
  | .bit => 4
  | .invalid => 5

/-- The diagnostic word `code | (trig << 4) | (len << 8)` (60_exceptions.md R253). -/
def diagWord (code : DiagCode) (trig : Trigger) (len : BitVec 4) : Word :=
  code.code.setWidth 32 ||| (trig.code.setWidth 32 <<< 4) ||| (len.setWidth 32 <<< 8)

/-! ## The STATUS word -/

/-- One bit as a 32-bit value: `zext_32` of 00_scope.md R11. -/
def bitWord (b : Bool) : Word := (BitVec.ofBool b).setWidth 32

/-- STATUS_WORD (44_host.md R230, 10_state.md R43). -/
def statusWord (s : State) : Word :=
  bitWord s.mode.bit
    ||| (bitWord s.frStarted <<< 1)
    ||| (bitWord s.frFinalized <<< 2)
    ||| (bitWord s.ctrlKnown <<< 3)
    ||| (bitWord s.txEver <<< 4)
    ||| (bitWord (heaterOffline s) <<< 5)
    ||| (bitWord s.pendValid <<< 6)
    ||| (s.frLen.setWidth 32 <<< 8)
    ||| (s.frBidx.setWidth 32 <<< 12)
    ||| (s.frSrc.code.setWidth 32 <<< 16)
    ||| (BitVec.ofNat 32 s.txqCount <<< 18)

/-! ## Sequencing -/

/-- The block's counterpart of a program counter: the pair (`fr_started`, `tx_seg`) together with `mode` (10_state.md R21). -/
def controlPoint (s : State) : Bool × BitVec 16 × BusMode := (s.frStarted, s.txSeg, s.mode)

/-- The edge interrupt is enabled while `mode = 0` and masked while `mode = 1` (40_capture.md R119, 60_exceptions.md R255). -/
def edgeInterruptArmed (s : State) : Bool := !s.mode.bit

end Sys2Proof.Machine
end

