-- ==== Sys2Proof/Machine/Operands.lean ====
section
/-! DEFINITION. The operand forms: the symbol a pulse record stands for, the length of a frame candidate, the packet of
TX_ENQUEUE, the registers REG_READ reads, and the level on the wire. -/

namespace Sys2Proof.Machine

open Sys2Proof

/-! ## Pulse records (30_encoding.md R85) -/

/-- The five symbols of 30_encoding.md R86. -/
inductive Symbol where
  | invalid
  | bit0
  | bit1
  | preamble
  | idle
deriving DecidableEq, Repr

/-- The operation of a symbol: the framer executes symbols the way a core executes instructions (00_scope.md R14). -/
def symbolInstr : Symbol → Instr
  | .invalid => .invalid
  | .bit0 => .bit0
  | .bit1 => .bit1
  | .preamble => .preamble
  | .idle => .idle

/-- `in(d, nom)`: `nom - TOL_US ≤ d ≤ nom + TOL_US`, bounds inclusive, on an unsigned 32-bit d (R85). -/
def inWindow (d : Word) (nom : Nat) : Bool :=
  decide (nom - Config.tolUs ≤ d.toNat) && decide (d.toNat ≤ nom + Config.tolUs)

/-- `CLASSIFY(rec)` (R85). -/
def classify (rec : PulseRecord) : Symbol :=
  if rec.level0 ≠ .low ∨ rec.level1 ≠ .high then .invalid
  else if Config.idleEndUs ≤ rec.dur1Us.toNat then .idle
  else if inWindow rec.dur1Us Config.nomPreHighUs then .preamble
  else if inWindow rec.dur0Us Config.nomBitLowUs then
    if inWindow rec.dur1Us Config.nomLongHighUs then .bit1
    else if inWindow rec.dur1Us Config.nomShortHighUs then .bit0
    else .invalid
  else .invalid

/-! ## Frame and packet lengths -/

/-- The frame length a byte count is, if it is one: `fr_len ∈ {9, 12}` (41_framer.md R143). -/
def frameLenOf (n : BitVec 4) : Option FrameLen :=
  if n = 9 then some .short else if n = 12 then some .long else none

/-- The length as a 4-bit field (60_exceptions.md R251). -/
def lenField (len : FrameLen) : BitVec 4 := BitVec.ofNat 4 len.bytes

/-- The packet TX_ENQUEUE stores: bytes at index ≥ L are ignored and stored as 0 (30_encoding.md R92, 43_transmit.md R192). -/
def packetOperand (len : FrameLen) (pkt : Bytes12) : Packet where
  len := len
  bytes := Vector.ofFn fun i : Fin 12 => if i.val < len.bytes then pkt[i] else 0

/-! ## Registers (10_state.md R41, 44_host.md R230) -/

/-- The value REG_READ gives for a register index; the reserved registers 8–15 read 0 (44_host.md R231). -/
def registerValue (ridx : BitVec 4) (s : State) : Word :=
  match ridx.toNat with
  | 0 => bitWord s.passive
  | 1 => statusWord s
  | 2 => BitVec.ofNat 32 s.pqCount
  | 3 => s.lastCtrlMs.setWidth 32
  | 4 => s.lastHeaterMs.setWidth 32
  | 5 => (s.lastTxEndUs / 1000#64).setWidth 32
  | 6 => (nowMs s).setWidth 32
  | 7 => s.frCur.setWidth 32
  | _ => 0

/-! ## The line -/

/-- The driven state of a level (43_transmit.md R206). -/
def driveOf : Level → BusDrive
  | .low => .low
  | .high => .high

/-- The level of the line, `other` being what another device drives, if one does: a released line reads high unless another
device pulls it low (10_state.md R40); a driven line has the driven level (43_transmit.md R206); two drivers at once are not
specified (70_reset_and_hazards.md R293), a free value. -/
def wireLevel (drive : BusDrive) (other : Option Level) : Level :=
  match drive, other with
  | .released, none => .high
  | .released, some l => l
  | .low, none => .low
  | .high, none => .high
  | .low, some l => Config.contendedLevel .low l
  | .high, some l => Config.contendedLevel .high l

end Sys2Proof.Machine
end

