-- ==== Sys2Proof/Machine/Waveform.lean ====
section
/-! DEFINITION. The burst waveform: 43_transmit.md R190, its flattening R191, and the duration R200. -/

namespace Sys2Proof.Machine

open Sys2Proof

/-- A transmit segment: the level and its duration in µs (43_transmit.md R190). -/
abbrev Segment := Level × Nat

/-- Bit `k` of byte `i` of a packet (20_memory.md R62). -/
def packetBit (p : Packet) (i k : Nat) : Bool := (p.bytes.toList.getD i 0).getLsbD k

/-- The high of a bit under the controller polarity: long for 1, short for 0 (43_transmit.md R190). -/
def bitHighUs (b : Bool) : Nat := if b then Config.txBit1HighUs else Config.txBit0HighUs

/-- The two segments of one bit (R190). -/
def bitSegments (b : Bool) : List Segment := [(.low, Config.txBitLowUs), (.high, bitHighUs b)]

/-- The segments of byte `i`, least significant bit first (R190, 20_memory.md R62). -/
def byteSegments (p : Packet) (i : Nat) : List Segment :=
  (List.range 8).flatMap fun k => bitSegments (packetBit p i k)

/-- What ends copy `r`: the inter-frame gap, or the trailer after the last copy (R190). -/
def closingSegments (r : Nat) : List Segment :=
  if r < Config.nRepeats - 1 then [(.low, Config.txGapLowUs), (.high, Config.txGapHighUs)]
  else [(.low, Config.txTrailLowUs), (.high, Config.txTrailHighUs)]

/-- Copy `r` of the packet (R190). -/
def copySegments (p : Packet) (r : Nat) : List Segment :=
  [(.low, Config.txPreLowUs), (.high, Config.txPreHighUs)]
    ++ (List.range p.len.bytes).flatMap (byteSegments p)
    ++ closingSegments r

/-- The whole burst of a packet: N_REPEATS copies (R190). -/
def burst (p : Packet) : List Segment := (List.range Config.nRepeats).flatMap (copySegments p)

/-- `NR = 16·L + 4`: the segments of one copy (R191). -/
def segsPerCopy (len : FrameLen) : Nat := 16 * len.bytes + 4

/-- `NSEG(L)` (R191). -/
def nseg (len : FrameLen) : Nat := Config.nRepeats * segsPerCopy len

/-- `SEG(p, i)`: segment i of the burst of packet p (R191). -/
def segAt (p : Packet) (i : Nat) : Segment :=
  let r := i / segsPerCopy p.len
  let j := i % segsPerCopy p.len
  if j = 0 then (.low, Config.txPreLowUs)
  else if j = 1 then (.high, Config.txPreHighUs)
  else if j < 16 * p.len.bytes + 2 then
    let k := j - 2
    let n := k / 2
    if k % 2 = 0 then (.low, Config.txBitLowUs)
    else (.high, bitHighUs (packetBit p (n / 8) (n % 8)))
  else if j = 16 * p.len.bytes + 2 then
    (.low, if r < Config.nRepeats - 1 then Config.txGapLowUs else Config.txTrailLowUs)
  else if r < Config.nRepeats - 1 then (.high, Config.txGapHighUs)
  else (.high, Config.txTrailHighUs)

/-- The number of 1 bits in `p.bytes[0..L-1]` (R200). -/
def onesOf (p : Packet) : Nat :=
  ((List.range p.len.bytes).flatMap fun i => (List.range 8).map (packetBit p i)).count true

/-- `BURST_US(p)`: the formula of R200. DEDUCED (assumption 10): R200's example for the 0xD2 frame is another number than
its formula gives. -/
def burstUs (p : Packet) : Nat :=
  Config.nRepeats * (14000 + 16000 * p.len.bytes + 2000 * onesOf p) + (Config.nRepeats - 1) * 101000 + 251000

end Sys2Proof.Machine
end

