-- ==== Sys2Proof/Machine/Ops.lean ====
section
/-! DEFINITION. The named operations on the state: outputs and diagnostics, the two queues, the sub-steps of the framer, of
the capture agent and of the transmit scheduler, TIME, RESET, and the enabling conditions. -/

namespace Sys2Proof.Machine

open Sys2Proof

/-! ## Outputs and diagnostics (10_state.md R45, 60_exceptions.md R250) -/

/-- `emit e`: append one event, stamped with `T`, to the output history (00_scope.md R12, 10_state.md R45). -/
def emit (e : Event) (s : State) : State := { s with history := s.history ++ [⟨s.timeUs, e⟩] }

/-- `emit Diag(code, trig, len)`: all that takes the place of a trap. No state is saved and no control is transferred
(60_exceptions.md R250, R258); there is no return (R259). -/
def emitDiag (code : DiagCode) (trig : Trigger) (len : BitVec 4) (s : State) : State := emit (.diag code trig len) s

/-! ## Queue storage -/

/-- The entry written at an index, if one was. -/
def slotRead {α : Type} (i : Nat) : List (Nat × α) → Option α
  | [] => none
  | (j, v) :: rest => if i = j then some v else slotRead i rest

/-- Write an entry; the list keeps its indices strictly rising. -/
def slotWrite {α : Type} (i : Nat) (v : α) : List (Nat × α) → List (Nat × α)
  | [] => [(i, v)]
  | (j, w) :: rest =>
    if i < j then (i, v) :: (j, w) :: rest
    else if i = j then (i, v) :: rest
    else (j, w) :: slotWrite i v rest

/-- The canonical form of a queue's storage: indices strictly rising. -/
abbrev slotsSorted {α : Type} (l : List (Nat × α)) : Prop := l.Pairwise fun a b => a.1 < b.1

/-- Entry i of `pq_buf` (10_state.md R26); an entry nothing has written is unspecified (R48). -/
def pqEntry (s : State) (i : Nat) : PulseRecord := (slotRead i s.pqBuf).getD (Config.unspecifiedRecord i)

/-- Entry i of `txq_buf` (10_state.md R35); an entry nothing has written is unspecified (R48). -/
def txqEntry (s : State) (i : Nat) : Packet := (slotRead i s.txqBuf).getD (Config.unspecifiedPacket i)

/-! ## The pulse ring (20_memory.md R63, R64) -/

/-- The drop of the oldest record when the ring is full; it is silent (R63). -/
def pqMakeRoom (s : State) : State :=
  if s.pqCount = Config.pqCap then
    { s with pqHead := (s.pqHead + 1) % Config.pqCap, pqCount := s.pqCount - 1 }
  else s

/-- Store a record behind the newest one (R63). -/
def pqStore (rec : PulseRecord) (s : State) : State :=
  { s with
    pqBuf := slotWrite ((s.pqHead + s.pqCount) % Config.pqCap) rec s.pqBuf
    pqCount := s.pqCount + 1 }

/-- `pq.push(rec)` (R63). -/
def pqPush (rec : PulseRecord) (s : State) : State := pqStore rec (pqMakeRoom s)

/-- The record `pq.pop()` returns (R64). -/
def pqFront (s : State) : PulseRecord := pqEntry s s.pqHead

/-- What `pq.pop()` leaves (R64). -/
def pqDrop (s : State) : State :=
  { s with pqHead := (s.pqHead + 1) % Config.pqCap, pqCount := s.pqCount - 1 }

/-- The records the ring holds, oldest first (10_state.md R26, 20_memory.md R66). -/
def pqContents (s : State) : List PulseRecord :=
  (List.range s.pqCount).map fun k => pqEntry s ((s.pqHead + k) % Config.pqCap)

/-! ## The outbound queue (20_memory.md R68, R69) -/

/-- The drop of the oldest packet when the queue is full, with its diagnostic (R68). -/
def txqMakeRoom (s : State) : State :=
  if s.txqCount = Config.txqCap then
    emitDiag .txqOverflow .none 0
      { s with txqHead := (s.txqHead + 1) % Config.txqCap, txqCount := s.txqCount - 1 }
  else s

/-- Store a packet behind the newest one and notify the consumer (R68). -/
def txqStore (pkt : Packet) (s : State) : State :=
  { s with
    txqBuf := slotWrite ((s.txqHead + s.txqCount) % Config.txqCap) pkt s.txqBuf
    txqCount := s.txqCount + 1
    txNotify := true }

/-- `txq.push(pkt)` (R68). -/
def txqPush (pkt : Packet) (s : State) : State := txqStore pkt (txqMakeRoom s)

/-- The packet `txq.pop()` returns (R69). -/
def txqFront (s : State) : Packet := txqEntry s s.txqHead

/-- What `txq.pop()` leaves (R69). -/
def txqDrop (s : State) : State :=
  { s with txqHead := (s.txqHead + 1) % Config.txqCap, txqCount := s.txqCount - 1 }

/-- The packets the queue holds, oldest first (10_state.md R35, 20_memory.md R70). -/
def txqContents (s : State) : List Packet :=
  (List.range s.txqCount).map fun k => txqEntry s ((s.txqHead + k) % Config.txqCap)

/-! ## Capture (40_capture.md R112, R113) -/

/-- `PAIR_LOW(d)`: a low has ended and opens a record (R112). -/
def pairLow (d : Word) (s : State) : State := { s with pendDur := d, pendValid := true }

/-- `PAIR_HIGH(d)`: a high has ended; it closes and publishes the open record, or is discarded (R113). -/
def pairHigh (d : Word) (s : State) : State :=
  if s.pendValid then
    { pqPush ⟨.low, s.pendDur, .high, d⟩ s with pendValid := false, pendDur := 0 }
  else s

/-- The body of EDGE in Receive mode (40_capture.md R110): time the half-period that has ended, then pair it. -/
def captureEdge (after : Level) (s : State) : State :=
  let d := durSinceEdge s
  let s1 := { s with lastEdge := s.timeUs.setWidth 32 }
  match after with
  | .high => pairLow d s1
  | .low => pairHigh d s1

/-! ## The framer's sub-steps (41_framer.md R140–R143, 42_checksum.md R176) -/

/-- `FR_RESET()` (41_framer.md R140). -/
def frReset (s : State) : State :=
  { s with
    frStarted := false
    frFinalized := false
    frCur := 0
    frBidx := 0
    frSrc := .unknown
    frTimeMs := 0
    frBuf := zeroBytes
    frLen := 0 }

/-- `FR_START()` (R142). -/
def frStart (s : State) : State :=
  { frReset s with frStarted := true, frSrc := .unknown, frTimeMs := nowMs s }

/-- `fr_cur | (b << fr_bidx)` (R141). -/
def accumulate (b : Bool) (s : State) : Byte :=
  s.frCur ||| ((if b then 1#8 else 0#8) <<< s.frBidx.toNat)

/-- `APPEND(b)` (R141). -/
def appendBit (b : Bool) (s : State) : State :=
  let s1 := { s with frCur := accumulate b s }
  if s1.frBidx.toNat < 7 then { s1 with frBidx := s1.frBidx + 1 }
  else if s1.frLen.toNat = Config.frMaxLen then frReset (emitDiag .overlong .bit s1.frLen s1)
  else
    { s1 with
      frBuf := s1.frBuf.setIfInBounds s1.frLen.toNat s1.frCur
      frLen := s1.frLen + 1
      frCur := 0
      frBidx := 0 }

/-- What FINALIZE writes before it emits the frame (42_checksum.md R176). -/
def takeOrigin (v : Origin) (len : FrameLen) (s : State) : State :=
  match v with
  | .heater =>
    { s with
      frFinalized := true
      frBuf := complementBuffer s.frBuf len
      frSrc := .heater
      lastHeaterMs := s.frTimeMs }
  | .controller =>
    { s with
      frFinalized := true
      frSrc := .controller
      ctrlKnown := true
      lastCtrlMs := s.frTimeMs }

/-- The Frame event of FINALIZE (42_checksum.md R176, 10_state.md R46). -/
def frameEvent (len : FrameLen) (s : State) : Event := .frame len (frameBytes s.frBuf len) s.frSrc s.frTimeMs

/-- `FINALIZE(v)` (42_checksum.md R176). -/
def finalize (v : Origin) (len : FrameLen) (s : State) : State :=
  let s1 := takeOrigin v len s
  frReset (emit (frameEvent len s1) s1)

/-- `END_FRAME(trig)` (41_framer.md R143). -/
def endFrame (trig : Trigger) (s : State) : State :=
  match frameLenOf s.frLen with
  | none => frReset (emitDiag .badLength trig s.frLen s)
  | some len =>
    match validate s.frBuf.toList len with
    | none => frReset (emitDiag .badChecksum trig s.frLen s)
    | some v => finalize v len s

/-! ## The symbols (41_framer.md R145–R149) -/

/-- `SYM_PREAMBLE()` (R145). -/
def symPreamble (s : State) : State := frStart (if s.frStarted then endFrame .preamble s else s)

/-- `SYM_BIT0()` and `SYM_BIT1()` (R146, R147). -/
def symBit (b : Bool) (s : State) : State := if s.frStarted then appendBit b s else s

/-- `SYM_IDLE(trig)` (R148). -/
def symIdle (trig : Trigger) (s : State) : State := if s.frStarted then endFrame trig s else s

/-- `SYM_INVALID()` (R149). -/
def symInvalid (s : State) : State :=
  if s.frStarted ∧ Config.minInvalidResetLen ≤ s.frLen.toNat then
    frReset (emitDiag .invalidPulse .invalid s.frLen s)
  else s

/-- The `case sym of` of RX_POP (R144). -/
def runSymbol (sym : Symbol) (s : State) : State :=
  match sym with
  | .preamble => symPreamble s
  | .bit0 => symBit false s
  | .bit1 => symBit true s
  | .idle => symIdle .idle s
  | .invalid => symInvalid s

/-- The body of RX_POP (R144). -/
def popRecord (s : State) : State := runSymbol (classify (pqFront s)) (pqDrop s)

/-- The body of RX_IDLE_CHECK (R150). -/
def idleCheck (s : State) : State :=
  if s.frStarted ∧ Config.rxIdleUs ≤ (durSinceEdge s).toNat then symIdle .synthIdle s else s

/-! ## The transmit scheduler (43_transmit.md R192–R207) -/

/-- The body of TX_ENQUEUE (R192, R193). -/
def enqueuePacket (len : FrameLen) (pkt : Bytes12) (s : State) : State :=
  if s.passive then emitDiag .passiveBlocked .none (lenField len) s
  else txqPush (packetOperand len pkt) s

/-- `COLLISION_OK()` (R198). -/
def collisionOk (s : State) : Bool :=
  !s.ctrlKnown
    || decide ((Config.ctrlTimeoutMs : Int) ≤ elapsed (nowMs s) s.lastCtrlMs)
    || decide ((nowMs s).toNat + Config.txEstMs < s.lastCtrlMs.toNat + Config.ctrlPeriodMs)

/-- Precondition 2: the throttle, in µs, from the end of the last burst (R197, R208). -/
def throttleOk (s : State) : Bool :=
  !s.txEver || decide ((Config.throttleMs * 1000 : Nat) ≤ elapsed s.timeUs s.lastTxEndUs)

/-- `START_OK()` (R197). -/
def startOk (s : State) : Bool :=
  !s.passive && decide (0 < s.txqCount) && !s.frStarted && throttleOk s && collisionOk s

/-- `BURST_START()` (R199). -/
def burstStart (s : State) : State :=
  { txqDrop s with
    txPkt := txqFront s
    txNseg := BitVec.ofNat 16 (nseg (txqFront s).len)
    txSeg := 0
    txDeadline := s.timeUs
    mode := .transmit }

/-- The body of TX_TICK (R196). -/
def schedulerTick (s : State) : State :=
  let s1 := { s with txNotify := false }
  if startOk s1 then burstStart s1 else s1

/-- `tx_deadline + dur`; a sum outside the 64-bit range is a free value (00_scope.md R11, assumption 6). -/
def deadlineAfter (deadline : Time) (dur : Nat) : Time :=
  if deadline.toNat + dur < 2 ^ 64 then deadline + BitVec.ofNat 64 dur
  else Config.deadlineBeyondRange deadline dur

/-- The body of TX_SEGMENT (R204). -/
def driveSegment (s : State) : State :=
  let seg := segAt s.txPkt s.txSeg.toNat
  { emit (.seg seg.1 seg.2) s with
    busDrive := driveOf seg.1
    txDeadline := deadlineAfter s.txDeadline seg.2
    txSeg := s.txSeg + 1 }

/-- The body of TX_END (R207). -/
def endBurst (s : State) : State :=
  { frReset (emit .release s) with
    busDrive := .released
    pendValid := false
    pendDur := 0
    lastEdge := s.timeUs.setWidth 32
    mode := .receive
    txEver := true
    lastTxEndUs := s.timeUs
    txPkt := Packet.zero
    txNseg := 0
    txSeg := 0
    txDeadline := 0 }

/-! ## Host access (44_host.md R230–R236) -/

/-- The body of REG_WRITE: only CTRL.PASSIVE is writable (R232, R233). -/
def writeRegister (ridx : BitVec 4) (d : Word) (s : State) : State :=
  if ridx = 0 then { s with passive := d.getLsbD 0 } else s

/-- The body of RESET: every element at its value in 10_state.md R48 with `T_r` = `T`; `T` and the output history are kept
(44_host.md R236), and so is the agenda, which is no state of the block. -/
def resetBlock (s : State) : State :=
  { s with
    mode := .receive
    lastEdge := s.timeUs.setWidth 32
    pendValid := false
    pendDur := 0
    pqHead := 0
    pqCount := 0
    pqBuf := []
    frBuf := zeroBytes
    frLen := 0
    frCur := 0
    frBidx := 0
    frSrc := .unknown
    frStarted := false
    frFinalized := false
    frTimeMs := 0
    ctrlKnown := false
    lastCtrlMs := 0
    lastHeaterMs := nowMs s
    txqHead := 0
    txqCount := 0
    txqBuf := []
    txNotify := false
    txPkt := Packet.zero
    txNseg := 0
    txSeg := 0
    txDeadline := 0
    txEver := false
    lastTxEndUs := 0
    passive := true
    busDrive := .released }

/-! ## TIME (10_state.md R22, 43_transmit.md R205) -/

/-- Whether TIME may advance `T` by n µs: by a positive amount (10_state.md R22), never past the end of the 64-bit counter
(00_scope.md R11), and during a burst not past `tx_deadline` (43_transmit.md R205). -/
def mayAdvance (n : Nat) (s : State) : Bool :=
  decide (0 < n) && decide (s.timeUs.toNat + n < 2 ^ 64)
    && (s.mode = .receive || decide (s.timeUs.toNat + n ≤ s.txDeadline.toNat))

/-- TIME advances `T` by n µs where it may; else it is held. -/
def advanceTime (n : Nat) (s : State) : State :=
  if mayAdvance n s then { s with timeUs := BitVec.ofNat 64 (s.timeUs.toNat + n) } else s

/-! ## Enabling conditions (00_scope.md R13) -/

/-- RX_POP is enabled when `pq_count > 0` (41_framer.md R144). -/
def rxPopEnabled (s : State) : Bool := decide (0 < s.pqCount)
/-- RX_IDLE_CHECK is enabled when `pq_count = 0` (41_framer.md R150). -/
def rxIdleCheckEnabled (s : State) : Bool := decide (s.pqCount = 0)
/-- TX_TICK is enabled when `mode = 0` (43_transmit.md R196). -/
def txTickEnabled (s : State) : Bool := decide (s.mode = .receive)
/-- TX_SEGMENT is enabled when `mode = 1`, `tx_seg < tx_nseg` and `T = tx_deadline` (43_transmit.md R204). -/
def txSegmentEnabled (s : State) : Bool :=
  decide (s.mode = .transmit) && decide (s.txSeg.toNat < s.txNseg.toNat) && decide (s.timeUs = s.txDeadline)
/-- TX_END is enabled when `mode = 1`, `tx_seg = tx_nseg` and `T = tx_deadline` (43_transmit.md R207). -/
def txEndEnabled (s : State) : Bool :=
  decide (s.mode = .transmit) && decide (s.txSeg = s.txNseg) && decide (s.timeUs = s.txDeadline)
/-- RESET is enabled when `mode = 0` (44_host.md R236). -/
def resetEnabled (s : State) : Bool := decide (s.mode = .receive)

/-- The enabling condition of each operation (00_scope.md R13). The symbols have none: they run inside RX_POP. -/
def enabled : Instr → State → Bool
  | .edge _, _ => true
  | .rxPop, s => rxPopEnabled s
  | .rxIdleCheck, s => rxIdleCheckEnabled s
  | .txEnqueue _ _, _ => true
  | .txTick, s => txTickEnabled s
  | .txSegment, s => txSegmentEnabled s
  | .txEnd, s => txEndEnabled s
  | .regRead _, _ => true
  | .regWrite _ _, _ => true
  | .reset, s => resetEnabled s
  | .illegal _, _ => true
  | .invalid, _ => true
  | .bit0, _ => true
  | .bit1, _ => true
  | .preamble, _ => true
  | .idle, _ => true

/-- Take a step if it is enabled; a step that is not enabled is not taken: the agent is held, and it is never a fault
(00_scope.md R13). -/
def takeIf (en : Bool) (body : State → State) (s : State) : Host.Outcome State Fault Refusal :=
  .next (if en then body s else s)

end Sys2Proof.Machine
end

