-- ==== Sys2Proof/Machine/Capture.lean ====
section
/-! DEFINITION. The operation of the capture agent CAP (40_capture.md). -/

namespace Sys2Proof.Machine

open Sys2Proof

/-- EDGE(A) (40_capture.md R110): always enabled; in Transmit mode it changes no state (R114). -/
def execEdge (after : Level) (s : State) : Host.Outcome State Fault Refusal :=
  .next (if s.mode = .transmit then s else captureEdge after s)

end Sys2Proof.Machine
end

