-- ==== Sys2Proof/Machine/Framer.lean ====
section
/-! DEFINITION. The operations of the RX worker RXW and the five symbols of the framer (41_framer.md). -/

namespace Sys2Proof.Machine

open Sys2Proof

/-- RX_POP (41_framer.md R144). -/
def execRxPop (s : State) : Host.Outcome State Fault Refusal := takeIf (rxPopEnabled s) popRecord s

/-- RX_IDLE_CHECK (41_framer.md R150). -/
def execRxIdleCheck (s : State) : Host.Outcome State Fault Refusal := takeIf (rxIdleCheckEnabled s) idleCheck s

/-- The symbol INVALID (41_framer.md R149). -/
def execInvalid (s : State) : Host.Outcome State Fault Refusal := .next (symInvalid s)

/-- The symbol BIT0 (41_framer.md R146). -/
def execBit0 (s : State) : Host.Outcome State Fault Refusal := .next (symBit false s)

/-- The symbol BIT1 (41_framer.md R147). -/
def execBit1 (s : State) : Host.Outcome State Fault Refusal := .next (symBit true s)

/-- The symbol PREAMBLE (41_framer.md R145). -/
def execPreamble (s : State) : Host.Outcome State Fault Refusal := .next (symPreamble s)

/-- The symbol IDLE (41_framer.md R148). DEDUCED (assumption 4): an IDLE symbol code that is executed directly has the
trigger of a record, TRIG_IDLE; TRIG_SYNTH_IDLE belongs to RX_IDLE_CHECK alone. -/
def execIdle (s : State) : Host.Outcome State Fault Refusal := .next (symIdle .idle s)

end Sys2Proof.Machine
end

