-- ==== Sys2Proof/Machine/HostAccess.lean ====
section
/-! DEFINITION. The operations of HOST: the registers, RESET and illegal command words (44_host.md). -/

namespace Sys2Proof.Machine

open Sys2Proof

/-- REG_READ (44_host.md R230, R231): the only effect is the RegValue event. -/
def execRegRead (ridx : BitVec 4) (s : State) : Host.Outcome State Fault Refusal :=
  .next (emit (.regValue (registerValue ridx s)) s)

/-- REG_WRITE (44_host.md R232, R233). -/
def execRegWrite (ridx : BitVec 4) (d : Word) (s : State) : Host.Outcome State Fault Refusal :=
  .next (writeRegister ridx d s)

/-- RESET (44_host.md R236): held while `mode = 1`. -/
def execReset (s : State) : Host.Outcome State Fault Refusal := takeIf (resetEnabled s) resetBlock s

/-- ILLEGAL (44_host.md R238): the diagnostic and no other state change, whatever the word. -/
def execIllegal (_word : Word) (s : State) : Host.Outcome State Fault Refusal :=
  .next (emitDiag .illegalCmd .none 0 s)

end Sys2Proof.Machine
end

