-- ==== Sys2Proof/Machine/Transmit.lean ====
section
/-! DEFINITION. TX_ENQUEUE and the operations of the TX worker TXW (43_transmit.md). -/

namespace Sys2Proof.Machine

open Sys2Proof

/-- TX_ENQUEUE (43_transmit.md R192): always enabled, in either bus mode. -/
def execTxEnqueue (len : FrameLen) (pkt : Bytes12) (s : State) : Host.Outcome State Fault Refusal :=
  .next (enqueuePacket len pkt s)

/-- TX_TICK (43_transmit.md R196). -/
def execTxTick (s : State) : Host.Outcome State Fault Refusal := takeIf (txTickEnabled s) schedulerTick s

/-- TX_SEGMENT (43_transmit.md R204). -/
def execTxSegment (s : State) : Host.Outcome State Fault Refusal := takeIf (txSegmentEnabled s) driveSegment s

/-- TX_END (43_transmit.md R207). -/
def execTxEnd (s : State) : Host.Outcome State Fault Refusal := takeIf (txEndEnabled s) endBurst s

end Sys2Proof.Machine
end

