-- ==== Sys2Proof/Machine/Dispatch.lean ====
section
/-! DEFINITION. The meaning of every operation, one arm per constructor of Instr. -/

namespace Sys2Proof.Machine

open Sys2Proof

def exec (i : Instr) (s : State) : Host.Outcome State Fault Refusal :=
  match i with
  | .edge level => Sys2Proof.Machine.execEdge level s
  | .rxPop => Sys2Proof.Machine.execRxPop s
  | .rxIdleCheck => Sys2Proof.Machine.execRxIdleCheck s
  | .txEnqueue len pkt => Sys2Proof.Machine.execTxEnqueue len pkt s
  | .txTick => Sys2Proof.Machine.execTxTick s
  | .txSegment => Sys2Proof.Machine.execTxSegment s
  | .txEnd => Sys2Proof.Machine.execTxEnd s
  | .regRead ridx => Sys2Proof.Machine.execRegRead ridx s
  | .regWrite ridx d => Sys2Proof.Machine.execRegWrite ridx d s
  | .reset => Sys2Proof.Machine.execReset s
  | .illegal word => Sys2Proof.Machine.execIllegal word s
  | .invalid => Sys2Proof.Machine.execInvalid s
  | .bit0 => Sys2Proof.Machine.execBit0 s
  | .bit1 => Sys2Proof.Machine.execBit1 s
  | .preamble => Sys2Proof.Machine.execPreamble s
  | .idle => Sys2Proof.Machine.execIdle s

end Sys2Proof.Machine
end

