-- ==== Sys2Proof/Machine/Sequencer.lean ====
section
/-! DEFINITION. What the agenda makes the machine do next. The block fetches nothing (20_memory.md R76): its agents take
atomic steps in one global total order (20_memory.md R72), and the agenda is that order, as the scheduler and TIME choose it
(assumption 1). -/

namespace Sys2Proof.Machine

open Sys2Proof

/-- One step of the operation a raw word stands for; a reserved symbol code is refused (30_encoding.md R87). -/
def runRaw (op : RawOp) (s : State) : Host.Outcome State Fault Refusal :=
  match decode op with
  | .ok i => exec i s
  | .error (.reservedSymbol code) => .refused (.reservedSymbol code)

/-- RX_DRAIN: RX_POP, repeated while `pq_count > 0` (30_encoding.md R96); `rest` is the agenda behind it. -/
def runDrain (rest : List AgendaItem) (s : State) : Host.Outcome State Fault Refusal :=
  if 0 < s.pqCount then exec .rxPop s else .next { s with agenda := rest }

/-- TX_RUN: TX_SEGMENT at each deadline, `tx_nseg` times, then TX_END (30_encoding.md R96, 43_transmit.md R205): TIME
advances to the deadline, then TXW's due step is taken. -/
def runBurst (rest : List AgendaItem) (s : State) : Host.Outcome State Fault Refusal :=
  if s.mode = .receive then .next { s with agenda := rest }
  else if s.timeUs.toNat < s.txDeadline.toNat then
    .next (advanceTime (s.txDeadline.toNat - s.timeUs.toNat) s)
  else if s.txSeg.toNat < s.txNseg.toNat then exec .txSegment s
  else exec .txEnd { s with agenda := rest }

/-- The first item of the agenda is acted on. With nothing on the agenda no agent takes a step and no time passes. An item
that is offered and not enabled, or a time TIME may not advance to, changes nothing but the agenda (00_scope.md R13). -/
def takeStep (s : State) : Host.Outcome State Fault Refusal :=
  match s.agenda with
  | [] => .next s
  | .offer op :: rest => runRaw op { s with agenda := rest }
  | .wait us :: rest => .next (advanceTime us { s with agenda := rest })
  | .atTime t :: rest => .next (advanceTime (t - s.timeUs.toNat) { s with agenda := rest })
  | .rxDrain :: rest => runDrain rest s
  | .txRun :: rest => runBurst rest s

/-- The state with one more operation offered first (none for bits that are no raw operation). -/
def offerFirst (op : Option RawOp) (s : State) : State :=
  match op with
  | none => s
  | some op => { s with agenda := .offer op :: s.agenda }

end Sys2Proof.Machine
end

