-- ==== Sys2Proof/Machine/Step.lean ====
section
/-! DEFINITION. One step of the machine, and the placing of an operation where the next step takes it from. -/

namespace Sys2Proof.Machine

open Sys2Proof

/-- One atomic step: the first item of the agenda (20_memory.md R72). -/
def step (s : State) : Host.Outcome State Fault Refusal := takeStep s

/-- `s` with the operation of an opcode-table word offered first on the agenda, its data operand 0, so that the very next
step runs it. -/
def State.withFetchWord (s : State) (nbits w : Nat) : State := offerFirst (rawOfTableWord nbits w) s

end Sys2Proof.Machine
end

