-- ==== Sys2Proof/Machine/Assembler.lean ====
section
/-! DEFINITION. The pseudo-instructions of 30_encoding.md R96 as lists of agenda items, and the line syntax of R95. -/

namespace Sys2Proof.Machine

open Sys2Proof

/-- One line of a program: an operation offered as its command word or symbol code (30_encoding.md R95). -/
def line (i : Instr) : AgendaItem := .offer (encode i)

/-- `@t` before a line: TIME advances `T` to t first (30_encoding.md R95). -/
def lineAt (t : Nat) (i : Instr) : List AgendaItem := [.atTime t, line i]

/-- BUS_PRE (R96). -/
def busPre : List AgendaItem := [line (.edge .low), .rxDrain, .wait 9000, line (.edge .high), .wait 5000]

/-- BUS_BIT v (R96). -/
def busBit (v : Bool) : List AgendaItem :=
  [line (.edge .low), .rxDrain, .wait 1000, line (.edge .high), .wait (if v then 3000 else 1000)]

/-- BUS_BYTE_C b: bit 0 first, controller polarity (R96). -/
def busByteC (b : Byte) : List AgendaItem := (List.range 8).flatMap fun k => busBit (b.getLsbD k)

/-- BUS_BYTE_H b: the heater polarity, the pattern of ~b (R96). -/
def busByteH (b : Byte) : List AgendaItem := busByteC (~~~b)

/-- BUS_END (R96). -/
def busEnd : List AgendaItem := [line (.edge .low), .rxDrain, .wait 1000, line (.edge .high)]

/-- BUS_FRAME_C b0 .. bL-1 (R96). -/
def busFrameC (bytes : List Byte) : List AgendaItem := busPre ++ bytes.flatMap busByteC ++ busEnd

/-- BUS_FRAME_H b0 .. bL-1 (R96). -/
def busFrameH (bytes : List Byte) : List AgendaItem := busPre ++ bytes.flatMap busByteH ++ busEnd

/-! ## The text of a line (R95) -/

/-- One hexadecimal digit. -/
def hexDigit (n : Nat) : Char := "0123456789ABCDEF".toList.getD (n % 16) '0'

/-- A byte as two hexadecimal digits. -/
def hexByte (b : Byte) : String := String.ofList [hexDigit (b.toNat / 16), hexDigit b.toNat]

/-- A 32-bit value as `0x` and eight hexadecimal digits. -/
def hexWord (w : Word) : String :=
  "0x" ++ String.ofList ((List.range 8).map fun k => hexDigit (w.toNat / 16 ^ (7 - k)))

/-- The register names of 10_state.md R41; a reserved register is written as its index. -/
def registerName (ridx : BitVec 4) : String :=
  match ridx.toNat with
  | 0 => "CTRL"
  | 1 => "STATUS"
  | 2 => "PQ_COUNT"
  | 3 => "LAST_CTRL_MS"
  | 4 => "LAST_HEATER_MS"
  | 5 => "LAST_TX_END_MS"
  | 6 => "NOW_MS"
  | 7 => "FR_CUR"
  | n => toString n

/-- The line of an operation: its mnemonic and operands (R95); an illegal word is the `.word` of 95_test_vectors.md, and a
symbol is its name in 30_encoding.md R86. -/
def lineText : Instr → String
  | .edge level => if level.bit then "EDGE 1" else "EDGE 0"
  | .rxPop => "RX_POP"
  | .rxIdleCheck => "RX_IDLE_CHECK"
  | .txEnqueue len pkt =>
    (if len.flag then "TX_ENQUEUE L12, " else "TX_ENQUEUE L9, ")
      ++ String.intercalate " " ((pkt.toList.take len.bytes).map hexByte)
  | .txTick => "TX_TICK"
  | .txSegment => "TX_SEGMENT"
  | .txEnd => "TX_END"
  | .regRead ridx => "REG_READ " ++ registerName ridx
  | .regWrite ridx d => "REG_WRITE " ++ registerName ridx ++ ", " ++ hexWord d
  | .reset => "RESET"
  | .illegal w => ".word " ++ hexWord w
  | .invalid => "INVALID"
  | .bit0 => "BIT0"
  | .bit1 => "BIT1"
  | .preamble => "PREAMBLE"
  | .idle => "IDLE"

end Sys2Proof.Machine
end

