-- ==== Sys2Proof/Safety.lean ====
section
/-! DEFINITION. What counts as a legal state and as a fair run: the invariants of 10_state.md R49, the invariants that the
rules of the queues and of the timestamps rest on, and the cadence conditions of 41_framer.md R152 and 43_transmit.md R195. -/

namespace Sys2Proof.Safety

open Sys2Proof Sys2Proof.Machine

/-! ## The invariants of 10_state.md R49 -/

/-- R49 item 1: `0 ≤ pq_count ≤ PQ_CAP` and `0 ≤ txq_count ≤ TXQ_CAP`; with the index ranges of R26 and R35. -/
def QueueBounds (s : State) : Prop :=
  s.pqCount ≤ Config.pqCap ∧ s.txqCount ≤ Config.txqCap ∧ s.pqHead < Config.pqCap ∧ s.txqHead < Config.txqCap

/-- R49 item 2: `0 ≤ fr_len ≤ 12` and `0 ≤ fr_bidx ≤ 7`. -/
def FramerBounds (s : State) : Prop := s.frLen.toNat ≤ 12 ∧ s.frBidx.toNat ≤ 7

/-- R49 item 3: an Idle framer holds nothing. -/
def IdleFramerEmpty (s : State) : Prop :=
  s.frStarted = false →
    s.frLen = 0 ∧ s.frCur = 0 ∧ s.frBidx = 0 ∧ s.frSrc = .unknown ∧ s.frTimeMs = 0 ∧ s.frBuf = zeroBytes

/-- R49 item 4: `fr_finalized = 0`. -/
def NotFinalized (s : State) : Prop := s.frFinalized = false

/-- R49 item 5: `fr_src = Unknown` whenever `fr_started = 1`. -/
def SourceUndecided (s : State) : Prop := s.frStarted = true → s.frSrc = .unknown

/-- R49 item 6: `mode = 0` implies `tx_seg = tx_nseg = 0` and `bus_drive = RELEASED`. -/
def LineReleased (s : State) : Prop :=
  s.mode = .receive → s.txSeg = 0 ∧ s.txNseg = 0 ∧ s.busDrive = .released

/-- R49 item 7: `fr_cur < 2^fr_bidx`. -/
def PartialByteBound (s : State) : Prop := s.frCur.toNat < 2 ^ s.frBidx.toNat

/-- All seven invariants of 10_state.md R49. -/
def StateInv (s : State) : Prop :=
  QueueBounds s ∧ FramerBounds s ∧ IdleFramerEmpty s ∧ NotFinalized s ∧ SourceUndecided s ∧ LineReleased s
    ∧ PartialByteBound s

/-! ## The storage of the queues -/

/-- The storage of both queues is in canonical form, and every live entry has been written, so that no pop reads an
unspecified entry (10_state.md R48: "No rule reads an entry" outside the live range). -/
def LiveEntriesWritten (s : State) : Prop :=
  slotsSorted s.pqBuf ∧ slotsSorted s.txqBuf
    ∧ (∀ k < s.pqCount, (slotRead ((s.pqHead + k) % Config.pqCap) s.pqBuf).isSome)
    ∧ (∀ k < s.txqCount, (slotRead ((s.txqHead + k) % Config.txqCap) s.txqBuf).isSome)

/-! ## Timestamps -/

/-- No timestamp lies in the future: `last_ctrl_ms ≤ NOW_MS` (43_transmit.md R198), and the same of the other times. -/
def NoFutureTimes (s : State) : Prop :=
  s.lastCtrlMs.toNat ≤ (nowMs s).toNat ∧ s.lastHeaterMs.toNat ≤ (nowMs s).toNat
    ∧ s.frTimeMs.toNat ≤ (nowMs s).toNat ∧ s.lastTxEndUs.toNat ≤ s.timeUs.toNat

/-! ## Bursts -/

/-- The burst state while `mode = 1`: `tx_nseg = NSEG(L)` and `0 ≤ tx_seg ≤ tx_nseg` (10_state.md R37, 43_transmit.md R199);
while `mode = 0` it is 0 (R37). -/
def BurstState (s : State) : Prop :=
  match s.mode with
  | .transmit => s.txNseg.toNat = nseg s.txPkt.len ∧ s.txSeg.toNat ≤ s.txNseg.toNat
  | .receive => s.txPkt = Packet.zero ∧ s.txNseg = 0 ∧ s.txSeg = 0 ∧ s.txDeadline = 0

/-! ## Outputs -/

/-- What 10_state.md R46 says of a Frame event: L bytes, from the heater or the controller; and since the bytes are
polarity-corrected, their checksum is right (42_checksum.md R172, R176). -/
def FrameEventOk : Event → Prop
  | .frame len bytes src _ =>
    bytes.length = len.bytes ∧ (src = .heater ∨ src = .controller) ∧ checksum bytes len = checkByte bytes len
  | .diag _ _ _ => True
  | .seg _ _ => True
  | .release => True
  | .regValue _ => True

/-- Whether an event is a diagnostic. -/
def isDiag : Event → Bool
  | .diag _ _ _ => true
  | .frame _ _ _ _ => false
  | .seg _ _ => false
  | .release => false
  | .regValue _ => false

/-! ## Frame ends -/

/-- What END_FRAME(trig) makes of a state (41_framer.md R143, 42_checksum.md R176): the four ways a candidate can end. -/
def EndsFrame (trig : Trigger) (s t : State) : Prop :=
  (s.frLen ≠ 9 ∧ s.frLen ≠ 12 ∧
    t = frReset { s with history := s.history ++ [⟨s.timeUs, .diag .badLength trig s.frLen⟩] })
  ∨ ∃ len : FrameLen, s.frLen.toNat = len.bytes ∧
    match validate (s.frBuf.toList.take len.bytes) len with
    | none => t = frReset { s with history := s.history ++ [⟨s.timeUs, .diag .badChecksum trig s.frLen⟩] }
    | some .controller =>
      t = frReset { s with
        ctrlKnown := true
        lastCtrlMs := s.frTimeMs
        history := s.history ++
          [⟨s.timeUs, .frame len (s.frBuf.toList.take len.bytes) .controller s.frTimeMs⟩] }
    | some .heater =>
      t = frReset { s with
        lastHeaterMs := s.frTimeMs
        history := s.history ++
          [⟨s.timeUs, .frame len ((s.frBuf.toList.take len.bytes).map (fun b => ~~~b)) .heater s.frTimeMs⟩] }

/-! ## Streams of symbols and records -/

/-- Operations executed one after the other, with nothing between them. -/
def execAll : List Instr → State → Host.Outcome State Fault Refusal
  | [], s => .next s
  | i :: rest, s =>
    match exec i s with
    | .next t => execAll rest t
    | .fault r => .fault r
    | .refused r => .refused r

/-- The bit symbol of a bit under the controller polarity (30_encoding.md R80). -/
def bitInstr (b : Bool) : Instr := if b then .bit1 else .bit0

/-- The record of one bit at its nominal durations (30_encoding.md R80). -/
def bitRecord (b : Bool) : PulseRecord := ⟨.low, 1000, .high, if b then 3000 else 1000⟩

/-- The records of a frame whose bytes have this long/short pattern on the wire (30_encoding.md R88): a preamble, the bits
of every byte, least significant first, and a record that ends with the inter-frame gap. -/
def wireRecords (pattern : List Byte) : List PulseRecord :=
  [⟨.low, 9000, .high, 5000⟩]
    ++ pattern.flatMap (fun b => (List.range 8).map fun k => bitRecord (b.getLsbD k))
    ++ [⟨.low, 1000, .high, 100000⟩]

/-- The framer executes the symbol of each record in turn (41_framer.md R144). -/
def execRecords (recs : List PulseRecord) (s : State) : Host.Outcome State Fault Refusal :=
  execAll (recs.map fun r => symbolInstr (classify r)) s

/-! ## Reset values -/

/-- The table of 10_state.md R48, `tr` being the time of the reset. The two rows it calls unspecified put no condition. -/
def ResetValues (tr : Time) (t : State) : Prop :=
  t.mode = .receive ∧ t.lastEdge = tr.setWidth 32 ∧ t.pendValid = false ∧ t.pendDur = 0
    ∧ t.pqHead = 0 ∧ t.pqCount = 0
    ∧ t.frBuf = zeroBytes ∧ t.frLen = 0 ∧ t.frCur = 0 ∧ t.frBidx = 0 ∧ t.frSrc = .unknown
    ∧ t.frStarted = false ∧ t.frFinalized = false ∧ t.frTimeMs = 0
    ∧ t.ctrlKnown = false ∧ t.lastCtrlMs = 0 ∧ t.lastHeaterMs.toNat = tr.toNat / 1000
    ∧ t.txqHead = 0 ∧ t.txqCount = 0 ∧ t.txNotify = false
    ∧ t.txPkt = Packet.zero ∧ t.txNseg = 0 ∧ t.txSeg = 0 ∧ t.txDeadline = 0
    ∧ t.txEver = false ∧ t.lastTxEndUs = 0 ∧ t.passive = true ∧ t.busDrive = .released

/-! ## Fair runs

The cadence rules are fairness conditions on the scheduler, not steps (41_framer.md R152, 43_transmit.md R195): nothing in
`step` enforces them (assumption 12). They are read off a run: the bounds in µs off the list of its states in order, and what
is eventually done off an endless run. -/

/-- The operation the next step is, if it is one: an offered one, RX_DRAIN's RX_POP, or TX_RUN's TX_SEGMENT or TX_END. -/
def offered (s : State) : Option Instr :=
  match s.agenda with
  | [] => none
  | .offer op :: _ =>
    match decode op with
    | .ok i => some i
    | .error _ => none
  | .wait _ :: _ => none
  | .atTime _ :: _ => none
  | .rxDrain :: _ => if 0 < s.pqCount then some .rxPop else none
  | .txRun :: _ =>
    if s.mode = .receive ∨ s.timeUs.toNat < s.txDeadline.toNat then none
    else if s.txSeg.toNat < s.txNseg.toNat then some .txSegment
    else some .txEnd

/-- The next step takes the operation: it is the one offered, and it is enabled (00_scope.md R13). -/
def takes (op : Instr) (s : State) : Bool := decide (offered s = some op) && enabled op s

/-- Along a run, `due` holds no longer than `limit` µs without a step of `op`; `since` is when the wait began. -/
def cadence (due : State → Bool) (op : Instr) (limit : Nat) : Option Nat → List State → Bool
  | _, [] => true
  | since, s :: rest =>
    if due s then
      let from0 := since.getD s.timeUs.toNat
      decide (s.timeUs.toNat ≤ from0 + limit)
        && cadence due op limit (some (if takes op s then s.timeUs.toNat else from0)) rest
    else cadence due op limit none rest

/-- While the ring is empty, RX_IDLE_CHECK is taken at least once in every RX_POP_TIMEOUT_US of `T` (41_framer.md R152). -/
def rxIdleCheckCadence (run : List State) : Bool :=
  cadence rxIdleCheckEnabled .rxIdleCheck Config.rxPopTimeoutUs none run

/-- While `mode = 0`, TX_TICK is taken at least once in every TX_TICK_MS · 1000 µs of `T` (43_transmit.md R195). -/
def txTickCadence (run : List State) : Bool :=
  cadence txTickEnabled .txTick (Config.txTickMs * 1000) none run

/-- An endless run: each state steps to the next one, and between two steps the scheduler may load the agenda anew (20_memory.md
R72; assumptions 1 and 2). -/
def EndlessRun (run : Nat → State) : Prop :=
  ∀ n, ∃ (t : State) (todo : List AgendaItem), step (run n) = .next t ∧ run (n + 1) = { t with agenda := todo }

/-- While `pq_count > 0`, RX_POP is eventually taken (41_framer.md R152): from every moment of the run on, an RX_POP is taken, or
the ring is empty by then. -/
def RxPopEventually (run : Nat → State) : Prop :=
  ∀ n, ∃ m, n ≤ m ∧ ((run m).pqCount = 0 ∨ takes .rxPop (run m) = true)

/-- RXW's cadence, whole (41_framer.md R152). -/
def RxwFair (run : Nat → State) : Prop :=
  RxPopEventually run ∧ ∀ n, rxIdleCheckCadence ((List.range n).map run) = true

/-- TXW's tick cadence (43_transmit.md R195). -/
def TxwFair (run : Nat → State) : Prop := ∀ n, txTickCadence ((List.range n).map run) = true

end Sys2Proof.Safety
end

