-- ==== Sys2Proof/WellFormed.lean ====
section
/-! DEFINITION. Which operations are well formed: those some command word or symbol code stands for. -/

namespace Sys2Proof

/-- The types of `Instr` already hold every operand to its field (a length of 9 or 12, twelve bytes, a 4-bit index), so one
check is left: the operation ILLEGAL carries a word that 30_encoding.md R93 makes illegal. -/
def wellFormed : Instr → Bool
  | .edge _ => true
  | .rxPop => true
  | .rxIdleCheck => true
  | .txEnqueue _ _ => true
  | .txTick => true
  | .txSegment => true
  | .txEnd => true
  | .regRead _ => true
  | .regWrite _ _ => true
  | .reset => true
  | .illegal w => illegalWord w
  | .invalid => true
  | .bit0 => true
  | .bit1 => true
  | .preamble => true
  | .idle => true

end Sys2Proof
end

