-- ==== Sys2Proof/Certificates/Slice0/Obligations.lean ====
section
/-! DEFINITION. The statements for the provers, in the order of OBLIGATIONS.json. Each docstring names the rules of spec/ the
statement formalises. -/

open Sys2Proof Sys2Proof.Machine Sys2Proof.Safety

/-! ## Encoding -/

/-- Decode and encode agree: every well-formed operation is what the decoder reads from its words, with every operand at
every value (30_encoding.md R86, R89–R92). -/
def Obligations.DecodeInvertsEncode : Prop :=
  ∀ i : Instr, wellFormed i = true → decode (encode i) = .ok i

/-- The other direction: every command word decodes, to a well-formed operation that encodes to that very word
(30_encoding.md R89, R93, R94): no bit of a word is dropped. -/
def Obligations.EveryCommandWordIsRecovered : Prop :=
  ∀ (w d : Word) (pkt : Bytes12), ∃ (i : Instr) (d' : Word) (pkt' : Bytes12),
    decode (.command w d pkt) = .ok i ∧ wellFormed i = true ∧ encode i = .command w d' pkt'

/-- 30_encoding.md R93 and 44_host.md R238: which words are illegal, field by field as numbers; and an illegal word is always
enabled, changes nothing and emits Diag(ILLEGAL_CMD, TRIG_NONE, 0). -/
def Obligations.IllegalWordsAreDiagnosed : Prop :=
  ∀ (w d : Word) (pkt : Bytes12) (s : State),
    (decode (.command w d pkt) = .ok (.illegal w) ↔
      w.toNat % 256 = 0 ∨ 0x0B ≤ w.toNat % 256
      ∨ w.toNat / 8192 ≠ 0
      ∨ (w.toNat / 256 % 2 ≠ 0 ∧ w.toNat % 256 ≠ 0x01 ∧ w.toNat % 256 ≠ 0x04)
      ∨ (w.toNat / 512 % 16 ≠ 0 ∧ w.toNat % 256 ≠ 0x08 ∧ w.toNat % 256 ≠ 0x09))
    ∧ enabled (.illegal w) s = true
    ∧ exec (.illegal w) s =
        .next { s with history := s.history ++ [⟨s.timeUs, .diag .illegalCmd .none 0⟩] }

/-- 30_encoding.md R87: a reserved symbol code is refused, the other codes are symbols, and CLASSIFY never produces a
reserved code. (The agenda, from which a code can come, is the model's own, assumption 1.) -/
def Obligations.ReservedSymbolCodesAreRefused : Prop :=
  (∀ (code : BitVec 3) (s : State) (rest : List AgendaItem),
    s.agenda = .offer (.symbol code) :: rest → 5 ≤ code.toNat →
      step s = .refused (.reservedSymbol code))
  ∧ (∀ rec : PulseRecord, ∃ code : BitVec 3, code.toNat ≤ 4 ∧
      decode (.symbol code) = .ok (symbolInstr (classify rec)))

/-- Words written out in 95_test_vectors.md and 30_encoding.md R86 decode to the operations they stand for. The operation comes
from the word by R86, R89 and R90. The layout of a table word is the model's own (log entry 3, DESIGN CHOICE): that the data
operands of a 32-bit row are 0 (the zero packet of 0x104, the zero data of 0x209), and that an 8-bit row is a symbol code. -/
def Obligations.TableWordsDecode : Prop :=
  decodeTableWord 32 0x00000101 = some (.edge .high)
  ∧ decodeTableWord 32 0x00000002 = some .rxPop
  ∧ decodeTableWord 32 0x00000104 = some (.txEnqueue .long zeroBytes)
  ∧ decodeTableWord 32 0x00000007 = some .txEnd
  ∧ decodeTableWord 32 0x00001208 = some (.regRead 9)
  ∧ decodeTableWord 32 0x00000209 = some (.regWrite 1 0)
  ∧ decodeTableWord 32 0x00002005 = some (.illegal 0x00002005)
  ∧ decodeTableWord 8 3 = some .preamble

/-- The model's own: an operation offered on the agenda is executed, on the state whose agenda has moved past it; placing a
word with `withFetchWord` makes the next step execute what the word decodes to (assumptions 1 and 2; 20_memory.md R72). -/
def Obligations.StepRunsTheOfferedOperation : Prop :=
  (∀ (s : State) (op : RawOp) (rest : List AgendaItem) (i : Instr),
    s.agenda = .offer op :: rest → decode op = .ok i → step s = exec i { s with agenda := rest })
  ∧ (∀ (s : State) (nbits w : Nat) (i : Instr),
    decodeTableWord nbits w = some i → step (s.withFetchWord nbits w) = exec i s)

/-! ## Reset -/

/-- 10_state.md R48, 44_host.md R236 and R237: power-on is the table of reset values at T = 0 with an empty output history;
RESET, where `mode = 0`, puts every element at its reset value for the current T, and keeps T and the history. Two points are
the model's own, of no rule of the spec: that RESET keeps the agenda (log entry 2, DESIGN CHOICE: the agenda is no state of the
block), and that `tx_pkt` at 0 is the packet of length flag 0 and zero bytes (log entry 7, DEDUCED). -/
def Obligations.ResetGivesTheResetValues : Prop :=
  (ResetValues 0 State.reset ∧ State.reset.timeUs = 0 ∧ State.reset.history = [])
  ∧ ∀ s : State, s.mode = .receive →
      ∃ t, exec .reset s = .next t ∧ ResetValues s.timeUs t ∧ t.timeUs = s.timeUs
        ∧ t.history = s.history ∧ t.agenda = s.agenda

/-- 70_reset_and_hazards.md R281: right after a reset EDGE, RX_IDLE_CHECK (which changes nothing), TX_TICK (which starts
nothing) and the operations of HOST other than an illegal word are enabled; RX_POP, TX_SEGMENT and TX_END are not. (That an
illegal word is enabled in every state is 44_host.md R238, stated by `IllegalWordsAreDiagnosed`.) -/
def Obligations.EnabledAfterReset : Prop :=
  ∀ (tr : Time) (s : State), ResetValues tr s →
    (∀ i : Instr, i.agent = .cap ∨ (i.agent = .host ∧ ∀ w, i ≠ .illegal w) → enabled i s = true)
    ∧ enabled .rxIdleCheck s = true ∧ exec .rxIdleCheck s = .next s
    ∧ enabled .txTick s = true ∧ exec .txTick s = .next s
    ∧ enabled .rxPop s = false ∧ enabled .txSegment s = false ∧ enabled .txEnd s = false

/-! ## Invariants -/

/-- The invariants of 10_state.md R49, and the model's further ones, hold at power-on. -/
def Obligations.InvariantsHoldAtReset : Prop :=
  StateInv State.reset ∧ LiveEntriesWritten State.reset ∧ NoFutureTimes State.reset ∧ BurstState State.reset

/-- Every step keeps the seven invariants of 10_state.md R49. -/
def Obligations.StepKeepsTheInvariants : Prop :=
  ∀ s t : State, StateInv s → step s = .next t → StateInv t

/-- 10_state.md R49: the invariants hold at every step boundary, whatever the agents and TIME are made to do. (That the order
of their steps is the agenda's is the model's own form of 20_memory.md R72, assumption 1.) -/
def Obligations.InvariantsHoldAtEveryStepBoundary : Prop :=
  ∀ (todo : List AgendaItem) (k : Nat) (t : State),
    Sys2Proof.core.run k { State.reset with agenda := todo } = .next t → StateInv t

/-- No pop reads an unspecified entry (10_state.md R48): where every live entry of both queues has been written, the entry that
`pq.pop()` or `txq.pop()` returns from a queue that holds one is a written one (20_memory.md R64, R69), and every step keeps it
so (R63, R68). The storage as the list of the written entries, and its canonical form (indices strictly rising), are the
model's own (log entry 5, DESIGN CHOICE). -/
def Obligations.StepKeepsLiveEntriesWritten : Prop :=
  ∀ s : State, QueueBounds s → LiveEntriesWritten s →
    (0 < s.pqCount → slotRead s.pqHead s.pqBuf = some (pqFront s))
    ∧ (0 < s.txqCount → slotRead s.txqHead s.txqBuf = some (txqFront s))
    ∧ ∀ t : State, step s = .next t → LiveEntriesWritten t

/-- No timestamp ever lies in the future (43_transmit.md R198: "`last_ctrl_ms ≤ NOW_MS` always holds"). -/
def Obligations.StepKeepsTimesInThePast : Prop :=
  ∀ s t : State, NoFutureTimes s → step s = .next t → NoFutureTimes t

/-- The burst state of 10_state.md R37: in Transmit mode `tx_nseg` is NSEG of the packet and `tx_seg ≤ tx_nseg`; in Receive
mode all four are 0. -/
def Obligations.StepKeepsTheBurstState : Prop :=
  ∀ s t : State, BurstState s → step s = .next t → BurstState t

/-! ## The whole machine -/

/-- 10_state.md R45: the output history is append-only and each event is stamped with T at the step that emits it;
60_exceptions.md R257: each step emits at most one Diag event. -/
def Obligations.HistoryOnlyGrows : Prop :=
  ∀ s t : State, step s = .next t →
    ∃ new : List Stamped, t.history = s.history ++ new
      ∧ (∀ e ∈ new, e.stamp = s.timeUs)
      ∧ new.countP (fun e => isDiag e.event) ≤ 1

/-- 10_state.md R46 with 42_checksum.md R172 and R176: every Frame event has the L bytes of its length, comes from the
heater or the controller, and its bytes, polarity-corrected, have the right checksum. -/
def Obligations.EveryFrameEventIsValid : Prop :=
  ∀ (i : Instr) (s t : State), exec i s = .next t →
    (∀ e ∈ s.history, FrameEventOk e.event) → ∀ e ∈ t.history, FrameEventOk e.event

/-- 60_exceptions.md R250 and 30_encoding.md R87: every step completes, but for the refusal of a reserved symbol code. -/
def Obligations.OnlyReservedSymbolsStop : Prop :=
  ∀ s : State, (∃ t, step s = .next t) ∨
    ∃ (code : BitVec 3) (rest : List AgendaItem), s.agenda = .offer (.symbol code) :: rest
      ∧ 5 ≤ code.toNat ∧ step s = .refused (.reservedSymbol code)

/-- 00_scope.md R13: where an operation is not enabled (41_framer.md R144, R150; 43_transmit.md R196, R204, R207;
44_host.md R236) its step is not taken: no state changes, and it is no fault. (That `exec` answers such a step with the same
state is the form the model gives it, log entry 1.) -/
def Obligations.HeldOperationsChangeNothing : Prop :=
  ∀ s : State,
    (s.pqCount = 0 → exec .rxPop s = .next s)
    ∧ (0 < s.pqCount → exec .rxIdleCheck s = .next s)
    ∧ (s.mode = .transmit → exec .txTick s = .next s ∧ exec .reset s = .next s)
    ∧ (¬(s.mode = .transmit ∧ s.txSeg.toNat < s.txNseg.toNat ∧ s.timeUs = s.txDeadline) →
        exec .txSegment s = .next s)
    ∧ (¬(s.mode = .transmit ∧ s.txSeg = s.txNseg ∧ s.timeUs = s.txDeadline) → exec .txEnd s = .next s)

/-- 10_state.md R33: only RESET clears `ctrl_known`. -/
def Obligations.OnlyResetForgetsTheController : Prop :=
  ∀ (i : Instr) (s t : State), exec i s = .next t → s.ctrlKnown = true → t.ctrlKnown = false → i = .reset

/-- 10_state.md R24: `mode` goes to 1 only at a TX_TICK and to 0 only at a TX_END; and R22: no operation writes T. -/
def Obligations.OnlyTickAndEndSwitchTheMode : Prop :=
  ∀ (i : Instr) (s t : State), exec i s = .next t →
    (s.mode = .receive → t.mode = .transmit → i = .txTick)
    ∧ (s.mode = .transmit → t.mode = .receive → i = .txEnd)
    ∧ t.timeUs = s.timeUs

/-- 43_transmit.md R209: once a burst has started it runs to TX_END. No other operation leaves Transmit mode or touches the
packet or the segment count, and only TX_SEGMENT moves the segment index or the deadline; RESET is held, and setting PASSIVE
changes nothing of the burst. -/
def Obligations.NothingAbortsABurst : Prop :=
  ∀ (i : Instr) (s t : State), exec i s = .next t → s.mode = .transmit → i ≠ .txEnd →
    t.mode = .transmit ∧ t.txPkt = s.txPkt ∧ t.txNseg = s.txNseg
    ∧ (i ≠ .txSegment → t.txSeg = s.txSeg ∧ t.txDeadline = s.txDeadline ∧ t.busDrive = s.busDrive)

/-- 20_memory.md R74 and 43_transmit.md R210: in Transmit mode no operation adds a record to the pulse ring or moves
`last_edge`, but for TX_END's re-arm; an EDGE changes no state at all. -/
def Obligations.OwnBurstIsNotReceived : Prop :=
  ∀ (i : Instr) (s t : State), exec i s = .next t → s.mode = .transmit →
    t.pqBuf = s.pqBuf ∧ t.pqCount ≤ s.pqCount
    ∧ (i ≠ .txEnd → t.lastEdge = s.lastEdge ∧ t.pendValid = s.pendValid ∧ t.pendDur = s.pendDur)
    ∧ (∀ l : Level, exec (.edge l) s = .next s)

/-- 40_capture.md R120: CAP modifies only the producer side of the pulse ring and its own capture state. Of the ring, that is the
entry behind the newest record and the count, which it raises by one; and where the ring is full, instead of the count, the
head, by the drop of the oldest record. -/
def Obligations.CaptureWritesOnlyItsOwnState : Prop :=
  ∀ (l : Level) (s : State), ∃ t, exec (.edge l) s = .next t
    ∧ (∀ i, i ≠ (s.pqHead + s.pqCount) % 2048 → pqEntry t i = pqEntry s i)
    ∧ (s.pqCount ≠ 2048 → t.pqHead = s.pqHead ∧ (t.pqCount = s.pqCount ∨ t.pqCount = s.pqCount + 1))
    ∧ (s.pqCount = 2048 → t.pqCount = 2048 ∧ (t.pqHead = s.pqHead ∨ t.pqHead = (s.pqHead + 1) % 2048))
    ∧ t = { s with
        pqBuf := t.pqBuf, pqHead := t.pqHead, pqCount := t.pqCount
        pendValid := t.pendValid, pendDur := t.pendDur, lastEdge := t.lastEdge }

/-- 60_exceptions.md R264: what the operations of RXW and of TXW may write. RXW takes records from the ring, and writes the
framer, the origin timestamps and the output; TXW writes the transmit state, takes packets from the queue, and at TX_END
resets the framer and re-arms capture. -/
def Obligations.WorkersWriteOnlyTheirState : Prop :=
  ∀ (i : Instr) (s t : State), exec i s = .next t →
    (i.agent = .rxw → t = { s with
      pqHead := t.pqHead, pqCount := t.pqCount
      frBuf := t.frBuf, frLen := t.frLen, frCur := t.frCur, frBidx := t.frBidx, frSrc := t.frSrc
      frStarted := t.frStarted, frFinalized := t.frFinalized, frTimeMs := t.frTimeMs
      ctrlKnown := t.ctrlKnown, lastCtrlMs := t.lastCtrlMs, lastHeaterMs := t.lastHeaterMs
      history := t.history })
    ∧ (i.agent = .txw → t = { s with
      mode := t.mode, busDrive := t.busDrive, txqHead := t.txqHead, txqCount := t.txqCount
      txNotify := t.txNotify, txPkt := t.txPkt, txNseg := t.txNseg, txSeg := t.txSeg
      txDeadline := t.txDeadline, txEver := t.txEver, lastTxEndUs := t.lastTxEndUs
      frBuf := t.frBuf, frLen := t.frLen, frCur := t.frCur, frBidx := t.frBidx, frSrc := t.frSrc
      frStarted := t.frStarted, frFinalized := t.frFinalized, frTimeMs := t.frTimeMs
      pendValid := t.pendValid, pendDur := t.pendDur, lastEdge := t.lastEdge
      history := t.history })

/-- 44_host.md R234: apart from TX_ENQUEUE and RESET, HOST can write no state but `passive`; what it reads or does wrong
only adds to the output history. -/
def Obligations.HostWritesOnlyPassive : Prop :=
  ∀ (i : Instr) (s t : State), exec i s = .next t → i.agent = .host →
    (∀ len pkt, i ≠ .txEnqueue len pkt) → i ≠ .reset →
      t = { s with passive := t.passive, history := t.history }

/-- 43_transmit.md R195: `tx_notify` changes no outcome of any rule. -/
def Obligations.NotifyChangesNoOutcome : Prop :=
  ∀ (i : Instr) (s t : State) (b : Bool), exec i s = .next t →
    ∃ n : Bool, exec i { s with txNotify := b } = .next { t with txNotify := n }

/-! ## Time -/

/-- 10_state.md R22 and 30_encoding.md R96: TIME advances T by a positive amount; nothing else changes. (The agenda that holds
the WAIT is the model's own, log entry 1.) -/
def Obligations.WaitAdvancesTime : Prop :=
  ∀ (s : State) (n : Nat) (rest : List AgendaItem),
    s.agenda = .wait n :: rest → 0 < n → s.timeUs.toNat + n < 2 ^ 64 →
    (s.mode = .transmit → s.timeUs.toNat + n ≤ s.txDeadline.toNat) →
      step s = .next { s with agenda := rest, timeUs := BitVec.ofNat 64 (s.timeUs.toNat + n) }

/-- 43_transmit.md R205: while `mode = 1` TIME does not pass `tx_deadline`, and at the deadline it does not advance before
TXW's due step. T never runs backwards. -/
def Obligations.TimeStopsAtTheDeadline : Prop :=
  ∀ s t : State, step s = .next t →
    s.timeUs.toNat ≤ t.timeUs.toNat
    ∧ (s.mode = .transmit → s.timeUs.toNat ≤ s.txDeadline.toNat → t.timeUs.toNat ≤ s.txDeadline.toNat)
    ∧ (s.mode = .transmit → s.timeUs = s.txDeadline → t.timeUs = s.timeUs)

/-! ## Capture and the pulse ring -/

/-- 40_capture.md R110–R114: the result of an EDGE. Transmit mode ignores it. A rising edge makes the low that has ended the
pending one. A falling edge with no pending low discards the high. -/
def Obligations.EdgeTimesTheHalfPeriod : Prop :=
  ∀ (s : State) (d : Word), d.toNat = (s.timeUs.toNat % 2 ^ 32 + 2 ^ 32 - s.lastEdge.toNat) % 2 ^ 32 →
    (∀ l, s.mode = .transmit → exec (.edge l) s = .next s)
    ∧ (s.mode = .receive → exec (.edge .high) s =
        .next { s with lastEdge := s.timeUs.setWidth 32, pendDur := d, pendValid := true })
    ∧ (s.mode = .receive → s.pendValid = false → exec (.edge .low) s =
        .next { s with lastEdge := s.timeUs.setWidth 32 })

/-- 40_capture.md R113 with 20_memory.md R63 and R66: a falling edge with a pending low publishes the record
(0, pend_dur, 1, d) behind the others; where the ring is full the oldest record is dropped, silently. -/
def Obligations.FallingEdgePublishesTheRecord : Prop :=
  ∀ (s : State) (d : Word), d.toNat = (s.timeUs.toNat % 2 ^ 32 + 2 ^ 32 - s.lastEdge.toNat) % 2 ^ 32 →
    s.mode = .receive → s.pendValid = true → s.pqCount ≤ 2048 →
    ∃ t, exec (.edge .low) s = .next t
      ∧ pqContents t =
          (if s.pqCount = 2048 then (pqContents s).drop 1 else pqContents s) ++ [⟨.low, s.pendDur, .high, d⟩]
      ∧ t.pqCount = min (s.pqCount + 1) 2048
      ∧ t = { s with
          pqBuf := t.pqBuf, pqHead := t.pqHead, pqCount := t.pqCount
          pendValid := false, pendDur := 0, lastEdge := s.timeUs.setWidth 32 }

/-- 30_encoding.md R85: each symbol's window, whatever the order of the tests. -/
def Obligations.ClassifyWindows : Prop :=
  ∀ rec : PulseRecord,
    let lo := rec.dur0Us.toNat
    let hi := rec.dur1Us.toNat
    let levels := rec.level0 = .low ∧ rec.level1 = .high
    (classify rec = .idle ↔ levels ∧ 50000 ≤ hi)
    ∧ (classify rec = .preamble ↔ levels ∧ 4400 ≤ hi ∧ hi ≤ 5600)
    ∧ (classify rec = .bit1 ↔ levels ∧ 400 ≤ lo ∧ lo ≤ 1600 ∧ 2400 ≤ hi ∧ hi ≤ 3600)
    ∧ (classify rec = .bit0 ↔ levels ∧ 400 ≤ lo ∧ lo ≤ 1600 ∧ 400 ≤ hi ∧ hi ≤ 1600)

/-- 41_framer.md R144 with 20_memory.md R64: RX_POP takes the oldest record from the ring, whatever its symbol, and executes
the symbol it classifies as on what is left. The premise on the head is part of the invariant of R49 (`QueueBounds`). -/
def Obligations.RxPopExecutesTheOldestRecord : Prop :=
  ∀ s : State, s.pqHead < 2048 → 0 < s.pqCount →
    ∃ (rec : PulseRecord) (popped t : State), pqContents s = rec :: pqContents popped
      ∧ popped = { s with pqHead := popped.pqHead, pqCount := s.pqCount - 1 }
      ∧ exec .rxPop s = .next t ∧ exec (symbolInstr (classify rec)) popped = .next t

/-- 41_framer.md R152: in an endless run in which RX_POP is eventually taken while the ring holds a record, the ring is drained
once no falling edge is captured any more. (A run that the scheduler continues by loading the agenda anew is the model's own
form of the scheduler, log entries 1, 2 and 12.) -/
def Obligations.FairRunDrainsTheRing : Prop :=
  ∀ (run : Nat → State) (n : Nat), EndlessRun run → RxPopEventually run →
    (∀ m, n ≤ m → (run m).mode = .receive → offered (run m) ≠ some (.edge .low)) →
      ∃ m, n ≤ m ∧ (run m).pqCount = 0

/-! ## The framer -/

/-- 41_framer.md R146, R147 and R141: what a bit symbol does, in every state of the framer. -/
def Obligations.BitSymbolsAccumulate : Prop :=
  ∀ (s : State) (b : Bool) (cur : Byte),
    cur = s.frCur ||| ((if b then 1#8 else 0#8) <<< s.frBidx.toNat) →
    (s.frStarted = false → exec (bitInstr b) s = .next s)
    ∧ (s.frStarted = true → s.frBidx ≠ 7 →
        exec (bitInstr b) s = .next { s with frCur := cur, frBidx := s.frBidx + 1 })
    ∧ (s.frStarted = true → s.frBidx = 7 → s.frLen ≠ 12 →
        exec (bitInstr b) s = .next { s with
          frBuf := s.frBuf.setIfInBounds s.frLen.toNat cur, frLen := s.frLen + 1, frCur := 0, frBidx := 0 })
    ∧ (s.frStarted = true → s.frBidx = 7 → s.frLen = 12 →
        exec (bitInstr b) s = .next { s with
          frStarted := false, frFinalized := false, frCur := 0, frBidx := 0, frSrc := .unknown, frTimeMs := 0
          frBuf := Vector.replicate 12 0, frLen := 0
          history := s.history ++ [⟨s.timeUs, .diag .overlong .bit 12⟩] })

/-- 20_memory.md R62 (receive side) and 41_framer.md R141: the eight bits of a byte, least significant first, append that
byte and nothing else. -/
def Obligations.EightBitsMakeTheByte : Prop :=
  ∀ (s : State) (b : Byte), s.frStarted = true → s.frBidx = 0 → s.frCur = 0 → s.frLen.toNat < 12 →
    execAll ((List.range 8).map fun k => bitInstr (b.getLsbD k)) s =
      .next { s with frBuf := s.frBuf.setIfInBounds s.frLen.toNat b, frLen := s.frLen + 1 }

/-- 41_framer.md R145 and R142: a preamble ends the candidate the framer holds, if it holds one, and starts a new one. -/
def Obligations.PreambleStartsAFrame : Prop :=
  ∀ s : State, ∃ t u : State,
    (s.frStarted = true → EndsFrame .preamble s u) ∧ (s.frStarted = false → u = s)
    ∧ exec .preamble s = .next t
    ∧ t = { u with
        frStarted := true, frFinalized := false, frCur := 0, frBidx := 0, frSrc := .unknown
        frTimeMs := s.timeUs / 1000, frBuf := Vector.replicate 12 0, frLen := 0 }

/-- 41_framer.md R148 and R143, 42_checksum.md R176: an IDLE symbol ends the candidate; while Idle it changes nothing. That an
IDLE executed directly, without a record, carries the trigger TRIG_IDLE is the model's reading (log entry 4, DEDUCED): the
spec gives TRIG_IDLE to the IDLE of a record and TRIG_SYNTH_IDLE to that of RX_IDLE_CHECK. -/
def Obligations.IdleEndsTheFrame : Prop :=
  ∀ s : State,
    (s.frStarted = false → exec .idle s = .next s)
    ∧ (s.frStarted = true → ∃ t, exec .idle s = .next t ∧ EndsFrame .idle s t)

/-- 41_framer.md R150: the idle detector, with the ring drained, ends the candidate 50 000 µs after the last edge, and does
nothing before that. -/
def Obligations.IdleCheckEndsTheFrame : Prop :=
  ∀ (s : State) (d : Nat), d = (s.timeUs.toNat % 2 ^ 32 + 2 ^ 32 - s.lastEdge.toNat) % 2 ^ 32 → s.pqCount = 0 →
    (s.frStarted = true → 50000 ≤ d → ∃ t, exec .rxIdleCheck s = .next t ∧ EndsFrame .synthIdle s t)
    ∧ (s.frStarted = false ∨ d < 50000 → exec .rxIdleCheck s = .next s)

/-- 41_framer.md R149: an INVALID record discards a candidate of 9 bytes or more and is skipped otherwise. -/
def Obligations.InvalidRecordDiscardsFromNineBytes : Prop :=
  ∀ s : State,
    (s.frStarted = true → 9 ≤ s.frLen.toNat → exec .invalid s = .next { s with
      frStarted := false, frFinalized := false, frCur := 0, frBidx := 0, frSrc := .unknown, frTimeMs := 0
      frBuf := Vector.replicate 12 0, frLen := 0
      history := s.history ++ [⟨s.timeUs, .diag .invalidPulse .invalid s.frLen⟩] })
    ∧ (s.frStarted = false ∨ s.frLen.toNat < 9 → exec .invalid s = .next s)

/-- 41_framer.md R154 (P3): after any IDLE, a record's or a synthesized one, the framer is Idle, and any number of further
idles, records' or synthesized ones, change neither the state nor the output history. -/
def Obligations.SecondIdleIsANoOp : Prop :=
  ∀ s t : State,
    (exec .idle s = .next t
      ∨ (s.pqCount = 0 ∧ 50000 ≤ (durSinceEdge s).toNat ∧ exec .rxIdleCheck s = .next t)) →
    t.frStarted = false
    ∧ ∀ idles : List Instr, (∀ i ∈ idles, i = .idle ∨ i = .rxIdleCheck) → execAll idles t = .next t

/-- 42_checksum.md R177 and R178 for the records of a frame: the nominal records of a frame with a right checksum, in the
controller polarity, are decoded as exactly that frame from the controller; the same frame in the heater polarity (its
complement on the wire) is decoded as the same logical frame from the heater. (The symbols are executed directly, without a
ring: log entry 4, DEDUCED.) -/
def Obligations.WireRecordsDecodeToTheFrame : Prop :=
  ∀ (s : State) (len : FrameLen) (bytes : List Byte),
    bytes.length = len.bytes → checksum bytes len = checkByte bytes len → s.frStarted = false →
    (∃ t, execRecords (wireRecords bytes) s = .next t
      ∧ t.history = s.history ++ [⟨s.timeUs, .frame len bytes .controller (nowMs s)⟩]
      ∧ t.frStarted = false ∧ t.ctrlKnown = true ∧ t.lastCtrlMs = nowMs s ∧ t.lastHeaterMs = s.lastHeaterMs)
    ∧ (∃ t, execRecords (wireRecords (bytes.map fun b => ~~~b)) s = .next t
      ∧ t.history = s.history ++ [⟨s.timeUs, .frame len bytes .heater (nowMs s)⟩]
      ∧ t.frStarted = false ∧ t.ctrlKnown = s.ctrlKnown ∧ t.lastCtrlMs = s.lastCtrlMs
      ∧ t.lastHeaterMs = nowMs s)

/-- 42_checksum.md R177 (P1) and R178 (P2) for the wire: a frame with a right checksum, sent at nominal durations with the
controller polarity (30_encoding.md R96 BUS_FRAME_C) or the heater polarity (BUS_FRAME_H) and followed by 50 ms of idle, is
captured edge by edge, decoded, and delivered as exactly that logical frame, from the controller or from the heater. It may
be the first frame, or follow a low that is still pending, as the closing low of the frame before it is, once the line has
been high for 50 ms: the record that its first falling edge then publishes is an IDLE, which an Idle framer ignores. The
state left is ready for the next frame in the same way. The order of the steps is the model's agenda (log entry 1), and
RX_DRAIN runs whole, with no other step inside it (log entry 14); both are DESIGN CHOICEs. -/
def Obligations.FramesOnTheWireAreDelivered : Prop :=
  ∀ (s : State) (len : FrameLen) (bytes : List Byte) (v : Origin),
    bytes.length = len.bytes → checksum bytes len = checkByte bytes len →
    s.mode = .receive → s.frStarted = false → s.pqCount = 0 → s.pqHead < 2048 →
    (s.pendValid = false ∨ 50000 ≤ (durSinceEdge s).toNat) →
    s.timeUs.toNat + 1000000 < 2 ^ 64 →
    s.agenda = (match v with
      | .controller => busFrameC bytes
      | .heater => busFrameH bytes) ++ [.wait 50000, line .rxIdleCheck] →
      ∃ (k : Nat) (t : State), Sys2Proof.core.run k s = .next t ∧ t.agenda = []
        ∧ t.history.map Stamped.event = s.history.map Stamped.event ++
            [.frame len bytes v.source (BitVec.ofNat 64 ((s.timeUs.toNat + 14000) / 1000))]
        ∧ t.mode = .receive ∧ t.frStarted = false ∧ t.pqCount = 0 ∧ t.pqHead < 2048
        ∧ t.pendValid = true ∧ (durSinceEdge t).toNat = 50000

/-! ## The checksum -/

/-- 42_checksum.md R173: the complement's checksum and checksum byte, the two polarity tests as conditions on the captured
bytes, and that no candidate passes both. -/
def Obligations.PolaritiesAreExclusive : Prop :=
  ∀ (buf : List Byte) (len : FrameLen), buf.length = len.bytes →
    let S := (checksum buf len).toNat
    let c := (checkByte buf len).toNat
    let nb := complement buf len
    let n := match len with
      | .short => 7
      | .long => 11
    let k := match len with
      | .short => 6
      | .long => 10
    ((checksum nb len).toNat : Int) = ((n : Int) * 255 - S) % 256
    ∧ (checkByte nb len).toNat = 255 - c
    ∧ (checksum nb len = checkByte nb len ↔ c = (S + k) % 256)
    ∧ (checksum buf len = checkByte buf len ↔ c = S)
    ∧ ¬(c = S ∧ c = (S + k) % 256)
    ∧ (validate buf len = some .controller ↔ c = S)
    ∧ (validate buf len = some .heater ↔ c = (S + k) % 256)

/-- 42_checksum.md R179: the whole-buffer corner cases and what is delivered for them; a single flipped bit in a byte that
enters the test makes a valid candidate invalid; a flipped bit in byte 0 of a short frame is not detected. -/
def Obligations.SingleFlippedBitIsDetected : Prop :=
  (validate (List.replicate 9 0x00) .short = some .controller
    ∧ validate (List.replicate 12 0x00) .long = some .controller
    ∧ checksum (List.replicate 9 0xFF) .short = 0xF9
    ∧ validate (List.replicate 9 0xFF) .short = some .heater
    ∧ complement (List.replicate 9 0xFF) .short = List.replicate 9 0x00
    ∧ checksum (List.replicate 12 0xFF) .long = 0xF5
    ∧ validate (List.replicate 12 0xFF) .long = some .heater
    ∧ complement (List.replicate 12 0xFF) .long = List.replicate 12 0x00)
  ∧ (∀ (buf : List Byte) (len : FrameLen) (i : Nat) (k : Nat) (v : Origin),
      buf.length = len.bytes → validate buf len = some v → i < len.bytes → (len = .short → 1 ≤ i) → k < 8 →
        validate (buf.modify i fun b => b ^^^ (1#8 <<< k)) len = none)
  ∧ (∀ (buf : List Byte) (k : Nat), buf.length = 9 →
      validate (buf.modify 0 fun b => b ^^^ (1#8 <<< k)) .short = validate buf .short)

/-! ## Transmit -/

/-- 43_transmit.md R192 and R193, with 20_memory.md R68 and 30_encoding.md R92: TX_ENQUEUE. While passive the packet is
discarded with a diagnostic; else it is queued behind the others, its bytes at index ≥ L stored as 0, and a full queue drops
its oldest packet with a diagnostic. -/
def Obligations.EnqueueQueuesThePacket : Prop :=
  ∀ (s : State) (len : FrameLen) (pkt : Bytes12),
    (s.passive = true → exec (.txEnqueue len pkt) s =
      .next { s with history := s.history ++
        [⟨s.timeUs, .diag .passiveBlocked .none (BitVec.ofNat 4 len.bytes)⟩] })
    ∧ (s.passive = false → s.txqCount ≤ 8 → ∃ (t : State) (p : Packet), exec (.txEnqueue len pkt) s = .next t
      ∧ p.len = len ∧ (∀ i : Fin 12, p.bytes[i] = if i.val < len.bytes then pkt[i] else 0)
      ∧ txqContents t = (if s.txqCount = 8 then (txqContents s).drop 1 else txqContents s) ++ [p]
      ∧ t.txqCount = min (s.txqCount + 1) 8
      ∧ t = { s with
          txqBuf := t.txqBuf, txqHead := t.txqHead, txqCount := t.txqCount, txNotify := true
          history := s.history ++
            (if s.txqCount = 8 then [⟨s.timeUs, .diag .txqOverflow .none 0⟩] else []) })

/-- 43_transmit.md R196–R199: TX_TICK, where `mode = 0`, starts a burst with the oldest packet exactly where every
precondition holds; else it only clears `tx_notify`. The premise on the head is part of the invariant of R49. -/
def Obligations.TickStartsABurstExactlyWhenAllowed : Prop :=
  ∀ s : State, s.mode = .receive → s.txqHead < 8 →
    let now := s.timeUs.toNat / 1000
    let start := s.passive = false ∧ 0 < s.txqCount ∧ s.frStarted = false
      ∧ (s.txEver = false ∨ s.lastTxEndUs.toNat + 10000000 ≤ s.timeUs.toNat)
      ∧ (s.ctrlKnown = false ∨ s.lastCtrlMs.toNat + 90000 ≤ now
          ∨ now + 4142 < s.lastCtrlMs.toNat + 60000)
    (start → ∃ (t : State) (p : Packet), exec .txTick s = .next t
      ∧ txqContents s = p :: txqContents t
      ∧ t = { s with
          txqHead := t.txqHead, txqCount := s.txqCount - 1, txNotify := false, mode := .transmit
          txPkt := p, txNseg := if p.len = .long then 1568 else 1184, txSeg := 0, txDeadline := s.timeUs })
    ∧ (¬start → exec .txTick s = .next { s with txNotify := false })

/-- 43_transmit.md R202: the collision window, exactly. -/
def Obligations.CollisionWindowIsExact : Prop :=
  ∀ s : State, s.ctrlKnown = true → s.lastCtrlMs.toNat ≤ (nowMs s).toNat →
    (collisionOk s = false ↔
      55858 ≤ (nowMs s).toNat - s.lastCtrlMs.toNat ∧ (nowMs s).toNat - s.lastCtrlMs.toNat < 90000)

/-- 43_transmit.md R203 (P8): while a controller frame is expected within 3992 ms, the estimated end of a burst lies after
it, the controller has not timed out, COLLISION_OK is false and no burst starts. -/
def Obligations.NoBurstBeforeAnExpectedControllerFrame : Prop :=
  ∀ (s : State) (expected : Nat), s.ctrlKnown = true → expected = s.lastCtrlMs.toNat + 60000 →
    (nowMs s).toNat ≤ expected → expected ≤ (nowMs s).toNat + 3992 →
    expected < (nowMs s).toNat + 4142 ∧ (nowMs s).toNat < s.lastCtrlMs.toNat + 90000 ∧ collisionOk s = false
    ∧ (s.mode = .receive → exec .txTick s = .next { s with txNotify := false })

/-- 43_transmit.md R208 (P7): a burst starts only 10 000 000 µs or more after the end of the last one, the end being the T
of the last TX_END, which nothing but a TX_END or a RESET changes. -/
def Obligations.ThrottleSeparatesBursts : Prop :=
  ∀ (i : Instr) (s t : State), exec i s = .next t →
    (s.mode = .receive → t.mode = .transmit → s.txEver = true →
      s.lastTxEndUs.toNat + 10000000 ≤ s.timeUs.toNat)
    ∧ (s.mode = .transmit → t.mode = .receive → t.txEver = true ∧ t.lastTxEndUs = s.timeUs)
    ∧ (i ≠ .txEnd → i ≠ .reset → t.txEver = s.txEver ∧ t.lastTxEndUs = s.lastTxEndUs)

/-- 43_transmit.md R190 and R191: SEG is the flattening of the waveform. -/
def Obligations.SegmentsFlattenTheWaveform : Prop :=
  (∀ p : Packet, burst p = (List.range (nseg p.len)).map (segAt p)) ∧ nseg .long = 1568 ∧ nseg .short = 1184

/-- 43_transmit.md R191: the segments of a burst alternate LOW, HIGH, starting with LOW and ending with HIGH. -/
def Obligations.SegmentsAlternate : Prop :=
  ∀ (p : Packet) (i : Nat), i < nseg p.len → (segAt p i).1 = if i % 2 = 0 then .low else .high

/-- 43_transmit.md R200 and R201: the duration of a burst is the sum of its segments, with the rule's four extreme values; the
estimate is the longest burst, and is never short of one. (R200's example for the 0xD2 frame is not stated: it is not what its
formula gives, assumption 10.) -/
def Obligations.BurstDuration : Prop :=
  (∀ p : Packet,
    ((burst p).map Prod.snd).sum = 8 * (14000 + 16000 * p.len.bytes + 2000 * onesOf p) + 7 * 101000 + 251000
    ∧ burstUs p = ((burst p).map Prod.snd).sum
    ∧ 2222000 ≤ burstUs p ∧ burstUs p ≤ 4142000 ∧ burstUs p ≤ Config.txEstMs * 1000)
  ∧ burstUs ⟨.long, Vector.replicate 12 0xFF⟩ = 4142000 ∧ burstUs ⟨.long, Vector.replicate 12 0x00⟩ = 2606000
  ∧ burstUs ⟨.short, Vector.replicate 12 0xFF⟩ = 3374000 ∧ burstUs ⟨.short, Vector.replicate 12 0x00⟩ = 2222000

/-- 43_transmit.md R204: TX_SEGMENT drives the next segment. The sum of the deadline is stated where it stays inside 64 bits
(00_scope.md R11); where it does not, the new deadline is a free value, and everything else is the same. -/
def Obligations.SegmentIsDriven : Prop :=
  ∀ (s : State) (lvl : Level) (dur : Nat), segAt s.txPkt s.txSeg.toNat = (lvl, dur) →
    s.mode = .transmit → s.txSeg.toNat < s.txNseg.toNat → s.timeUs = s.txDeadline →
    ∃ t, exec .txSegment s = .next t
      ∧ (s.txDeadline.toNat + dur < 2 ^ 64 → t.txDeadline.toNat = s.txDeadline.toNat + dur)
      ∧ t = { s with
          busDrive := (match lvl with
            | .low => .low
            | .high => .high)
          history := s.history ++ [⟨s.timeUs, .seg lvl dur⟩]
          txDeadline := t.txDeadline, txSeg := s.txSeg + 1 }

/-- 43_transmit.md R207: TX_END. `tx_pkt <- 0` is the packet of length flag 0 and zero bytes (assumption 7). -/
def Obligations.EndReturnsToReceive : Prop :=
  ∀ s : State, s.mode = .transmit → s.txSeg = s.txNseg → s.timeUs = s.txDeadline →
    exec .txEnd s = .next { s with
      busDrive := .released, history := s.history ++ [⟨s.timeUs, .release⟩]
      frStarted := false, frFinalized := false, frCur := 0, frBidx := 0, frSrc := .unknown, frTimeMs := 0
      frBuf := Vector.replicate 12 0, frLen := 0
      pendValid := false, pendDur := 0, lastEdge := s.timeUs.setWidth 32, mode := .receive
      txEver := true, lastTxEndUs := s.timeUs
      txPkt := ⟨.short, Vector.replicate 12 0⟩, txNseg := 0, txSeg := 0, txDeadline := 0 }

/-- 43_transmit.md R205, R200 and R190: a burst that has started sends every segment of its waveform in order, lasts exactly
BURST_US, and ends in Receive mode with the line released (the pseudo-instruction TX_RUN of 30_encoding.md R96). That TX_RUN
stands on an agenda and runs whole, one step of its at a time with no other agent's between them, is the model's own (log
entries 1 and 14, DESIGN CHOICE). -/
def Obligations.BurstRunsToItsEnd : Prop :=
  ∀ s : State, s.mode = .transmit → s.txNseg.toNat = nseg s.txPkt.len → s.txSeg = 0 → s.txDeadline = s.timeUs →
    s.timeUs.toNat + burstUs s.txPkt < 2 ^ 64 → s.agenda = [.txRun] →
      ∃ (k : Nat) (t : State), Sys2Proof.core.run k s = .next t ∧ t.agenda = []
        ∧ t.timeUs.toNat = s.timeUs.toNat + burstUs s.txPkt
        ∧ t.history.map Stamped.event = s.history.map Stamped.event
            ++ (burst s.txPkt).map (fun seg => .seg seg.1 seg.2) ++ [.release]
        ∧ t.mode = .receive ∧ t.busDrive = .released ∧ t.txEver = true ∧ t.lastTxEndUs = t.timeUs

/-! ## Host access -/

/-- 44_host.md R230 and R231, 10_state.md R41: REG_READ emits the register's value and changes nothing else. -/
def Obligations.RegisterReads : Prop :=
  ∀ (ridx : BitVec 4) (s : State), ∃ v : Word,
    exec (.regRead ridx) s = .next { s with history := s.history ++ [⟨s.timeUs, .regValue v⟩] }
    ∧ (ridx = 0 → v = if s.passive then 1 else 0)
    ∧ (ridx = 1 → v = statusWord s)
    ∧ (ridx = 2 → v.toNat = s.pqCount % 2 ^ 32)
    ∧ (ridx = 3 → v.toNat = s.lastCtrlMs.toNat % 2 ^ 32)
    ∧ (ridx = 4 → v.toNat = s.lastHeaterMs.toNat % 2 ^ 32)
    ∧ (ridx = 5 → v.toNat = s.lastTxEndUs.toNat / 1000 % 2 ^ 32)
    ∧ (ridx = 6 → v.toNat = s.timeUs.toNat / 1000 % 2 ^ 32)
    ∧ (ridx = 7 → v.toNat = s.frCur.toNat)
    ∧ (8 ≤ ridx.toNat → v = 0)

/-- 10_state.md R43 and R47: every field of STATUS stands at its bits, and the reserved bits are 0. -/
def Obligations.StatusFields : Prop :=
  ∀ s : State, s.txqCount ≤ 8 →
    let w := statusWord s
    w.getLsbD 0 = decide (s.mode = .transmit) ∧ w.getLsbD 1 = s.frStarted ∧ w.getLsbD 2 = s.frFinalized
    ∧ w.getLsbD 3 = s.ctrlKnown ∧ w.getLsbD 4 = s.txEver
    ∧ w.getLsbD 5 = decide (s.lastHeaterMs.toNat + 30000 ≤ s.timeUs.toNat / 1000)
    ∧ w.getLsbD 6 = s.pendValid ∧ w.getLsbD 7 = false
    ∧ w.extractLsb' 8 4 = s.frLen ∧ w.extractLsb' 12 3 = s.frBidx ∧ w.getLsbD 15 = false
    ∧ (w.extractLsb' 16 2).toNat = (match s.frSrc with
        | .unknown => 0
        | .heater => 1
        | .controller => 2
        | .localOrigin => 3)
    ∧ (w.extractLsb' 18 4).toNat = s.txqCount ∧ w.extractLsb' 22 10 = 0

/-- 44_host.md R232 and R233: a write to CTRL sets `passive` to bit 0 of the data; a write to any other register changes no
state and emits nothing. -/
def Obligations.RegisterWrites : Prop :=
  ∀ (ridx : BitVec 4) (d : Word) (s : State),
    (ridx = 0 → exec (.regWrite ridx d) s = .next { s with passive := decide (d.toNat % 2 = 1) })
    ∧ (ridx ≠ 0 → exec (.regWrite ridx d) s = .next s)

/-- 60_exceptions.md R253: the diagnostic word's fields; and its example. -/
def Obligations.DiagnosticWordFields : Prop :=
  (∀ (code : DiagCode) (trig : Trigger) (len : BitVec 4),
    (diagWord code trig len).toNat = code.code.toNat + 16 * trig.code.toNat + 256 * len.toNat)
  ∧ diagWord .badChecksum .idle 12 = 0x00000C22
end

