-- ==== Sys2Proof/Laws/Encoding.lean ====
section
/-! SUPPORT. The fields of a command word: as numbers, and in the words the encoder writes. -/

namespace Sys2Proof

/-- OPC as a number (30_encoding.md R89). -/
theorem opcField_toNat (w : Word) : (opcField w).toNat = w.toNat % 256 := by
  simp [opcField, BitVec.extractLsb'_toNat]

/-- RIDX as a number (30_encoding.md R89). -/
theorem ridxField_toNat (w : Word) : (ridxField w).toNat = w.toNat / 512 % 16 := by
  simp [ridxField, BitVec.extractLsb'_toNat, Nat.shiftRight_eq_div_pow]

/-- RSV as a number (30_encoding.md R89). -/
theorem rsvField_toNat (w : Word) : (rsvField w).toNat = w.toNat / 8192 := by
  have := w.isLt
  simp only [rsvField, BitVec.extractLsb'_toNat, Nat.shiftRight_eq_div_pow]
  exact Nat.mod_eq_of_lt (by omega)

/-- A as a number (30_encoding.md R89). -/
theorem aField_iff (w : Word) : aField w = true ↔ w.toNat / 256 % 2 = 1 := by
  simp [aField, BitVec.getLsbD, Nat.testBit_eq_decide_div_mod_eq]

/-- RIDX is 0 as a field exactly where it is 0 as a number. -/
theorem ridxField_eq_zero_iff (w : Word) : ridxField w = 0#4 ↔ w.toNat / 512 % 16 = 0 := by
  rw [← ridxField_toNat, ← BitVec.toNat_inj]; rfl

/-- RSV is 0 as a field exactly where it is 0 as a number. -/
theorem rsvField_eq_zero_iff (w : Word) : rsvField w = 0#19 ↔ w.toNat / 8192 = 0 := by
  rw [← rsvField_toNat, ← BitVec.toNat_inj]; rfl

/-- A command word as a number: each field at its place (30_encoding.md R89). -/
theorem commandWord_toNat (opc : BitVec 8) (a : Bool) (ridx : BitVec 4) :
    (commandWord opc a ridx).toNat = opc.toNat + 256 * a.toNat + 512 * ridx.toNat := by
  have h1 := opc.isLt
  have h2 := ridx.isLt
  simp only [commandWord, BitVec.toNat_append, BitVec.toNat_ofBool, BitVec.toNat_ofNat, Nat.zero_mod, Nat.zero_shiftLeft,
    Nat.zero_or]
  have ha : a.toNat < 2 ^ 1 := by cases a <;> decide
  rw [← Nat.shiftLeft_add_eq_or_of_lt h1, ← Nat.shiftLeft_add_eq_or_of_lt ha]
  simp only [Nat.shiftLeft_eq]
  omega

@[simp] theorem opcField_commandWord (opc : BitVec 8) (a : Bool) (ridx : BitVec 4) :
    opcField (commandWord opc a ridx) = opc := by
  rw [← BitVec.toNat_inj, opcField_toNat, commandWord_toNat]
  have := opc.isLt
  omega

@[simp] theorem ridxField_commandWord (opc : BitVec 8) (a : Bool) (ridx : BitVec 4) :
    ridxField (commandWord opc a ridx) = ridx := by
  rw [← BitVec.toNat_inj, ridxField_toNat, commandWord_toNat]
  have := opc.isLt
  have := ridx.isLt
  cases a <;> simp only [Bool.toNat_false, Bool.toNat_true] <;> omega

@[simp] theorem aField_commandWord (opc : BitVec 8) (a : Bool) (ridx : BitVec 4) :
    aField (commandWord opc a ridx) = a := by
  rw [Bool.eq_iff_iff, aField_iff, commandWord_toNat]
  have := opc.isLt
  cases a <;> simp <;> omega

@[simp] theorem rsvField_commandWord (opc : BitVec 8) (a : Bool) (ridx : BitVec 4) :
    rsvField (commandWord opc a ridx) = 0#19 := by
  rw [rsvField_eq_zero_iff, commandWord_toNat]
  have := opc.isLt
  have := ridx.isLt
  cases a <;> simp only [Bool.toNat_false, Bool.toNat_true] <;> omega

/-- A word whose reserved bits are 0 is the command word of its fields (30_encoding.md R89). -/
theorem commandWord_fields {w : Word} (h : rsvField w = 0#19) : commandWord (opcField w) (aField w) (ridxField w) = w := by
  rw [rsvField_eq_zero_iff] at h
  rw [← BitVec.toNat_inj, commandWord_toNat, opcField_toNat, ridxField_toNat]
  have ha : (aField w).toNat = w.toNat / 256 % 2 := by
    cases hb : aField w
    · have := (aField_iff w).not.1 (by simp [hb])
      simp only [Bool.toNat_false]; omega
    · have := (aField_iff w).1 hb
      simp only [Bool.toNat_true]; omega
  rw [ha]
  omega

end Sys2Proof
end

