-- ==== Sys2Proof/Laws/State.lean ====
section
/-! SUPPORT. One lemma per field for every operation that is a plain record update, so that no proof unfolds the update. -/

namespace Sys2Proof.Machine

open Sys2Proof

/-! ## emit -/

@[simp] theorem emit_timeUs (e : Event) (s : State) : (emit e s).timeUs = s.timeUs := rfl
@[simp] theorem emit_lastEdge (e : Event) (s : State) : (emit e s).lastEdge = s.lastEdge := rfl
@[simp] theorem emit_mode (e : Event) (s : State) : (emit e s).mode = s.mode := rfl
@[simp] theorem emit_pendValid (e : Event) (s : State) : (emit e s).pendValid = s.pendValid := rfl
@[simp] theorem emit_pendDur (e : Event) (s : State) : (emit e s).pendDur = s.pendDur := rfl
@[simp] theorem emit_pqBuf (e : Event) (s : State) : (emit e s).pqBuf = s.pqBuf := rfl
@[simp] theorem emit_pqHead (e : Event) (s : State) : (emit e s).pqHead = s.pqHead := rfl
@[simp] theorem emit_pqCount (e : Event) (s : State) : (emit e s).pqCount = s.pqCount := rfl
@[simp] theorem emit_frBuf (e : Event) (s : State) : (emit e s).frBuf = s.frBuf := rfl
@[simp] theorem emit_frLen (e : Event) (s : State) : (emit e s).frLen = s.frLen := rfl
@[simp] theorem emit_frCur (e : Event) (s : State) : (emit e s).frCur = s.frCur := rfl
@[simp] theorem emit_frBidx (e : Event) (s : State) : (emit e s).frBidx = s.frBidx := rfl
@[simp] theorem emit_frSrc (e : Event) (s : State) : (emit e s).frSrc = s.frSrc := rfl
@[simp] theorem emit_frStarted (e : Event) (s : State) : (emit e s).frStarted = s.frStarted := rfl
@[simp] theorem emit_frFinalized (e : Event) (s : State) : (emit e s).frFinalized = s.frFinalized := rfl
@[simp] theorem emit_frTimeMs (e : Event) (s : State) : (emit e s).frTimeMs = s.frTimeMs := rfl
@[simp] theorem emit_ctrlKnown (e : Event) (s : State) : (emit e s).ctrlKnown = s.ctrlKnown := rfl
@[simp] theorem emit_lastCtrlMs (e : Event) (s : State) : (emit e s).lastCtrlMs = s.lastCtrlMs := rfl
@[simp] theorem emit_lastHeaterMs (e : Event) (s : State) : (emit e s).lastHeaterMs = s.lastHeaterMs := rfl
@[simp] theorem emit_txqBuf (e : Event) (s : State) : (emit e s).txqBuf = s.txqBuf := rfl
@[simp] theorem emit_txqHead (e : Event) (s : State) : (emit e s).txqHead = s.txqHead := rfl
@[simp] theorem emit_txqCount (e : Event) (s : State) : (emit e s).txqCount = s.txqCount := rfl
@[simp] theorem emit_txNotify (e : Event) (s : State) : (emit e s).txNotify = s.txNotify := rfl
@[simp] theorem emit_txPkt (e : Event) (s : State) : (emit e s).txPkt = s.txPkt := rfl
@[simp] theorem emit_txNseg (e : Event) (s : State) : (emit e s).txNseg = s.txNseg := rfl
@[simp] theorem emit_txSeg (e : Event) (s : State) : (emit e s).txSeg = s.txSeg := rfl
@[simp] theorem emit_txDeadline (e : Event) (s : State) : (emit e s).txDeadline = s.txDeadline := rfl
@[simp] theorem emit_txEver (e : Event) (s : State) : (emit e s).txEver = s.txEver := rfl
@[simp] theorem emit_lastTxEndUs (e : Event) (s : State) : (emit e s).lastTxEndUs = s.lastTxEndUs := rfl
@[simp] theorem emit_passive (e : Event) (s : State) : (emit e s).passive = s.passive := rfl
@[simp] theorem emit_busDrive (e : Event) (s : State) : (emit e s).busDrive = s.busDrive := rfl
@[simp] theorem emit_history (e : Event) (s : State) : (emit e s).history = s.history ++ [⟨s.timeUs, e⟩] := rfl
@[simp] theorem emit_agenda (e : Event) (s : State) : (emit e s).agenda = s.agenda := rfl

/-! ## pqStore -/

@[simp] theorem pqStore_timeUs (rec : PulseRecord) (s : State) : (pqStore rec s).timeUs = s.timeUs := rfl
@[simp] theorem pqStore_lastEdge (rec : PulseRecord) (s : State) : (pqStore rec s).lastEdge = s.lastEdge := rfl
@[simp] theorem pqStore_mode (rec : PulseRecord) (s : State) : (pqStore rec s).mode = s.mode := rfl
@[simp] theorem pqStore_pendValid (rec : PulseRecord) (s : State) : (pqStore rec s).pendValid = s.pendValid := rfl
@[simp] theorem pqStore_pendDur (rec : PulseRecord) (s : State) : (pqStore rec s).pendDur = s.pendDur := rfl
@[simp] theorem pqStore_pqBuf (rec : PulseRecord) (s : State) : (pqStore rec s).pqBuf = slotWrite ((s.pqHead + s.pqCount) % Config.pqCap) rec s.pqBuf := rfl
@[simp] theorem pqStore_pqHead (rec : PulseRecord) (s : State) : (pqStore rec s).pqHead = s.pqHead := rfl
@[simp] theorem pqStore_pqCount (rec : PulseRecord) (s : State) : (pqStore rec s).pqCount = s.pqCount + 1 := rfl
@[simp] theorem pqStore_frBuf (rec : PulseRecord) (s : State) : (pqStore rec s).frBuf = s.frBuf := rfl
@[simp] theorem pqStore_frLen (rec : PulseRecord) (s : State) : (pqStore rec s).frLen = s.frLen := rfl
@[simp] theorem pqStore_frCur (rec : PulseRecord) (s : State) : (pqStore rec s).frCur = s.frCur := rfl
@[simp] theorem pqStore_frBidx (rec : PulseRecord) (s : State) : (pqStore rec s).frBidx = s.frBidx := rfl
@[simp] theorem pqStore_frSrc (rec : PulseRecord) (s : State) : (pqStore rec s).frSrc = s.frSrc := rfl
@[simp] theorem pqStore_frStarted (rec : PulseRecord) (s : State) : (pqStore rec s).frStarted = s.frStarted := rfl
@[simp] theorem pqStore_frFinalized (rec : PulseRecord) (s : State) : (pqStore rec s).frFinalized = s.frFinalized := rfl
@[simp] theorem pqStore_frTimeMs (rec : PulseRecord) (s : State) : (pqStore rec s).frTimeMs = s.frTimeMs := rfl
@[simp] theorem pqStore_ctrlKnown (rec : PulseRecord) (s : State) : (pqStore rec s).ctrlKnown = s.ctrlKnown := rfl
@[simp] theorem pqStore_lastCtrlMs (rec : PulseRecord) (s : State) : (pqStore rec s).lastCtrlMs = s.lastCtrlMs := rfl
@[simp] theorem pqStore_lastHeaterMs (rec : PulseRecord) (s : State) : (pqStore rec s).lastHeaterMs = s.lastHeaterMs := rfl
@[simp] theorem pqStore_txqBuf (rec : PulseRecord) (s : State) : (pqStore rec s).txqBuf = s.txqBuf := rfl
@[simp] theorem pqStore_txqHead (rec : PulseRecord) (s : State) : (pqStore rec s).txqHead = s.txqHead := rfl
@[simp] theorem pqStore_txqCount (rec : PulseRecord) (s : State) : (pqStore rec s).txqCount = s.txqCount := rfl
@[simp] theorem pqStore_txNotify (rec : PulseRecord) (s : State) : (pqStore rec s).txNotify = s.txNotify := rfl
@[simp] theorem pqStore_txPkt (rec : PulseRecord) (s : State) : (pqStore rec s).txPkt = s.txPkt := rfl
@[simp] theorem pqStore_txNseg (rec : PulseRecord) (s : State) : (pqStore rec s).txNseg = s.txNseg := rfl
@[simp] theorem pqStore_txSeg (rec : PulseRecord) (s : State) : (pqStore rec s).txSeg = s.txSeg := rfl
@[simp] theorem pqStore_txDeadline (rec : PulseRecord) (s : State) : (pqStore rec s).txDeadline = s.txDeadline := rfl
@[simp] theorem pqStore_txEver (rec : PulseRecord) (s : State) : (pqStore rec s).txEver = s.txEver := rfl
@[simp] theorem pqStore_lastTxEndUs (rec : PulseRecord) (s : State) : (pqStore rec s).lastTxEndUs = s.lastTxEndUs := rfl
@[simp] theorem pqStore_passive (rec : PulseRecord) (s : State) : (pqStore rec s).passive = s.passive := rfl
@[simp] theorem pqStore_busDrive (rec : PulseRecord) (s : State) : (pqStore rec s).busDrive = s.busDrive := rfl
@[simp] theorem pqStore_history (rec : PulseRecord) (s : State) : (pqStore rec s).history = s.history := rfl
@[simp] theorem pqStore_agenda (rec : PulseRecord) (s : State) : (pqStore rec s).agenda = s.agenda := rfl

/-! ## pqDrop -/

@[simp] theorem pqDrop_timeUs (s : State) : (pqDrop s).timeUs = s.timeUs := rfl
@[simp] theorem pqDrop_lastEdge (s : State) : (pqDrop s).lastEdge = s.lastEdge := rfl
@[simp] theorem pqDrop_mode (s : State) : (pqDrop s).mode = s.mode := rfl
@[simp] theorem pqDrop_pendValid (s : State) : (pqDrop s).pendValid = s.pendValid := rfl
@[simp] theorem pqDrop_pendDur (s : State) : (pqDrop s).pendDur = s.pendDur := rfl
@[simp] theorem pqDrop_pqBuf (s : State) : (pqDrop s).pqBuf = s.pqBuf := rfl
@[simp] theorem pqDrop_pqHead (s : State) : (pqDrop s).pqHead = (s.pqHead + 1) % Config.pqCap := rfl
@[simp] theorem pqDrop_pqCount (s : State) : (pqDrop s).pqCount = s.pqCount - 1 := rfl
@[simp] theorem pqDrop_frBuf (s : State) : (pqDrop s).frBuf = s.frBuf := rfl
@[simp] theorem pqDrop_frLen (s : State) : (pqDrop s).frLen = s.frLen := rfl
@[simp] theorem pqDrop_frCur (s : State) : (pqDrop s).frCur = s.frCur := rfl
@[simp] theorem pqDrop_frBidx (s : State) : (pqDrop s).frBidx = s.frBidx := rfl
@[simp] theorem pqDrop_frSrc (s : State) : (pqDrop s).frSrc = s.frSrc := rfl
@[simp] theorem pqDrop_frStarted (s : State) : (pqDrop s).frStarted = s.frStarted := rfl
@[simp] theorem pqDrop_frFinalized (s : State) : (pqDrop s).frFinalized = s.frFinalized := rfl
@[simp] theorem pqDrop_frTimeMs (s : State) : (pqDrop s).frTimeMs = s.frTimeMs := rfl
@[simp] theorem pqDrop_ctrlKnown (s : State) : (pqDrop s).ctrlKnown = s.ctrlKnown := rfl
@[simp] theorem pqDrop_lastCtrlMs (s : State) : (pqDrop s).lastCtrlMs = s.lastCtrlMs := rfl
@[simp] theorem pqDrop_lastHeaterMs (s : State) : (pqDrop s).lastHeaterMs = s.lastHeaterMs := rfl
@[simp] theorem pqDrop_txqBuf (s : State) : (pqDrop s).txqBuf = s.txqBuf := rfl
@[simp] theorem pqDrop_txqHead (s : State) : (pqDrop s).txqHead = s.txqHead := rfl
@[simp] theorem pqDrop_txqCount (s : State) : (pqDrop s).txqCount = s.txqCount := rfl
@[simp] theorem pqDrop_txNotify (s : State) : (pqDrop s).txNotify = s.txNotify := rfl
@[simp] theorem pqDrop_txPkt (s : State) : (pqDrop s).txPkt = s.txPkt := rfl
@[simp] theorem pqDrop_txNseg (s : State) : (pqDrop s).txNseg = s.txNseg := rfl
@[simp] theorem pqDrop_txSeg (s : State) : (pqDrop s).txSeg = s.txSeg := rfl
@[simp] theorem pqDrop_txDeadline (s : State) : (pqDrop s).txDeadline = s.txDeadline := rfl
@[simp] theorem pqDrop_txEver (s : State) : (pqDrop s).txEver = s.txEver := rfl
@[simp] theorem pqDrop_lastTxEndUs (s : State) : (pqDrop s).lastTxEndUs = s.lastTxEndUs := rfl
@[simp] theorem pqDrop_passive (s : State) : (pqDrop s).passive = s.passive := rfl
@[simp] theorem pqDrop_busDrive (s : State) : (pqDrop s).busDrive = s.busDrive := rfl
@[simp] theorem pqDrop_history (s : State) : (pqDrop s).history = s.history := rfl
@[simp] theorem pqDrop_agenda (s : State) : (pqDrop s).agenda = s.agenda := rfl

/-! ## txqStore -/

@[simp] theorem txqStore_timeUs (pkt : Packet) (s : State) : (txqStore pkt s).timeUs = s.timeUs := rfl
@[simp] theorem txqStore_lastEdge (pkt : Packet) (s : State) : (txqStore pkt s).lastEdge = s.lastEdge := rfl
@[simp] theorem txqStore_mode (pkt : Packet) (s : State) : (txqStore pkt s).mode = s.mode := rfl
@[simp] theorem txqStore_pendValid (pkt : Packet) (s : State) : (txqStore pkt s).pendValid = s.pendValid := rfl
@[simp] theorem txqStore_pendDur (pkt : Packet) (s : State) : (txqStore pkt s).pendDur = s.pendDur := rfl
@[simp] theorem txqStore_pqBuf (pkt : Packet) (s : State) : (txqStore pkt s).pqBuf = s.pqBuf := rfl
@[simp] theorem txqStore_pqHead (pkt : Packet) (s : State) : (txqStore pkt s).pqHead = s.pqHead := rfl
@[simp] theorem txqStore_pqCount (pkt : Packet) (s : State) : (txqStore pkt s).pqCount = s.pqCount := rfl
@[simp] theorem txqStore_frBuf (pkt : Packet) (s : State) : (txqStore pkt s).frBuf = s.frBuf := rfl
@[simp] theorem txqStore_frLen (pkt : Packet) (s : State) : (txqStore pkt s).frLen = s.frLen := rfl
@[simp] theorem txqStore_frCur (pkt : Packet) (s : State) : (txqStore pkt s).frCur = s.frCur := rfl
@[simp] theorem txqStore_frBidx (pkt : Packet) (s : State) : (txqStore pkt s).frBidx = s.frBidx := rfl
@[simp] theorem txqStore_frSrc (pkt : Packet) (s : State) : (txqStore pkt s).frSrc = s.frSrc := rfl
@[simp] theorem txqStore_frStarted (pkt : Packet) (s : State) : (txqStore pkt s).frStarted = s.frStarted := rfl
@[simp] theorem txqStore_frFinalized (pkt : Packet) (s : State) : (txqStore pkt s).frFinalized = s.frFinalized := rfl
@[simp] theorem txqStore_frTimeMs (pkt : Packet) (s : State) : (txqStore pkt s).frTimeMs = s.frTimeMs := rfl
@[simp] theorem txqStore_ctrlKnown (pkt : Packet) (s : State) : (txqStore pkt s).ctrlKnown = s.ctrlKnown := rfl
@[simp] theorem txqStore_lastCtrlMs (pkt : Packet) (s : State) : (txqStore pkt s).lastCtrlMs = s.lastCtrlMs := rfl
@[simp] theorem txqStore_lastHeaterMs (pkt : Packet) (s : State) : (txqStore pkt s).lastHeaterMs = s.lastHeaterMs := rfl
@[simp] theorem txqStore_txqBuf (pkt : Packet) (s : State) : (txqStore pkt s).txqBuf = slotWrite ((s.txqHead + s.txqCount) % Config.txqCap) pkt s.txqBuf := rfl
@[simp] theorem txqStore_txqHead (pkt : Packet) (s : State) : (txqStore pkt s).txqHead = s.txqHead := rfl
@[simp] theorem txqStore_txqCount (pkt : Packet) (s : State) : (txqStore pkt s).txqCount = s.txqCount + 1 := rfl
@[simp] theorem txqStore_txNotify (pkt : Packet) (s : State) : (txqStore pkt s).txNotify = true := rfl
@[simp] theorem txqStore_txPkt (pkt : Packet) (s : State) : (txqStore pkt s).txPkt = s.txPkt := rfl
@[simp] theorem txqStore_txNseg (pkt : Packet) (s : State) : (txqStore pkt s).txNseg = s.txNseg := rfl
@[simp] theorem txqStore_txSeg (pkt : Packet) (s : State) : (txqStore pkt s).txSeg = s.txSeg := rfl
@[simp] theorem txqStore_txDeadline (pkt : Packet) (s : State) : (txqStore pkt s).txDeadline = s.txDeadline := rfl
@[simp] theorem txqStore_txEver (pkt : Packet) (s : State) : (txqStore pkt s).txEver = s.txEver := rfl
@[simp] theorem txqStore_lastTxEndUs (pkt : Packet) (s : State) : (txqStore pkt s).lastTxEndUs = s.lastTxEndUs := rfl
@[simp] theorem txqStore_passive (pkt : Packet) (s : State) : (txqStore pkt s).passive = s.passive := rfl
@[simp] theorem txqStore_busDrive (pkt : Packet) (s : State) : (txqStore pkt s).busDrive = s.busDrive := rfl
@[simp] theorem txqStore_history (pkt : Packet) (s : State) : (txqStore pkt s).history = s.history := rfl
@[simp] theorem txqStore_agenda (pkt : Packet) (s : State) : (txqStore pkt s).agenda = s.agenda := rfl

/-! ## txqDrop -/

@[simp] theorem txqDrop_timeUs (s : State) : (txqDrop s).timeUs = s.timeUs := rfl
@[simp] theorem txqDrop_lastEdge (s : State) : (txqDrop s).lastEdge = s.lastEdge := rfl
@[simp] theorem txqDrop_mode (s : State) : (txqDrop s).mode = s.mode := rfl
@[simp] theorem txqDrop_pendValid (s : State) : (txqDrop s).pendValid = s.pendValid := rfl
@[simp] theorem txqDrop_pendDur (s : State) : (txqDrop s).pendDur = s.pendDur := rfl
@[simp] theorem txqDrop_pqBuf (s : State) : (txqDrop s).pqBuf = s.pqBuf := rfl
@[simp] theorem txqDrop_pqHead (s : State) : (txqDrop s).pqHead = s.pqHead := rfl
@[simp] theorem txqDrop_pqCount (s : State) : (txqDrop s).pqCount = s.pqCount := rfl
@[simp] theorem txqDrop_frBuf (s : State) : (txqDrop s).frBuf = s.frBuf := rfl
@[simp] theorem txqDrop_frLen (s : State) : (txqDrop s).frLen = s.frLen := rfl
@[simp] theorem txqDrop_frCur (s : State) : (txqDrop s).frCur = s.frCur := rfl
@[simp] theorem txqDrop_frBidx (s : State) : (txqDrop s).frBidx = s.frBidx := rfl
@[simp] theorem txqDrop_frSrc (s : State) : (txqDrop s).frSrc = s.frSrc := rfl
@[simp] theorem txqDrop_frStarted (s : State) : (txqDrop s).frStarted = s.frStarted := rfl
@[simp] theorem txqDrop_frFinalized (s : State) : (txqDrop s).frFinalized = s.frFinalized := rfl
@[simp] theorem txqDrop_frTimeMs (s : State) : (txqDrop s).frTimeMs = s.frTimeMs := rfl
@[simp] theorem txqDrop_ctrlKnown (s : State) : (txqDrop s).ctrlKnown = s.ctrlKnown := rfl
@[simp] theorem txqDrop_lastCtrlMs (s : State) : (txqDrop s).lastCtrlMs = s.lastCtrlMs := rfl
@[simp] theorem txqDrop_lastHeaterMs (s : State) : (txqDrop s).lastHeaterMs = s.lastHeaterMs := rfl
@[simp] theorem txqDrop_txqBuf (s : State) : (txqDrop s).txqBuf = s.txqBuf := rfl
@[simp] theorem txqDrop_txqHead (s : State) : (txqDrop s).txqHead = (s.txqHead + 1) % Config.txqCap := rfl
@[simp] theorem txqDrop_txqCount (s : State) : (txqDrop s).txqCount = s.txqCount - 1 := rfl
@[simp] theorem txqDrop_txNotify (s : State) : (txqDrop s).txNotify = s.txNotify := rfl
@[simp] theorem txqDrop_txPkt (s : State) : (txqDrop s).txPkt = s.txPkt := rfl
@[simp] theorem txqDrop_txNseg (s : State) : (txqDrop s).txNseg = s.txNseg := rfl
@[simp] theorem txqDrop_txSeg (s : State) : (txqDrop s).txSeg = s.txSeg := rfl
@[simp] theorem txqDrop_txDeadline (s : State) : (txqDrop s).txDeadline = s.txDeadline := rfl
@[simp] theorem txqDrop_txEver (s : State) : (txqDrop s).txEver = s.txEver := rfl
@[simp] theorem txqDrop_lastTxEndUs (s : State) : (txqDrop s).lastTxEndUs = s.lastTxEndUs := rfl
@[simp] theorem txqDrop_passive (s : State) : (txqDrop s).passive = s.passive := rfl
@[simp] theorem txqDrop_busDrive (s : State) : (txqDrop s).busDrive = s.busDrive := rfl
@[simp] theorem txqDrop_history (s : State) : (txqDrop s).history = s.history := rfl
@[simp] theorem txqDrop_agenda (s : State) : (txqDrop s).agenda = s.agenda := rfl

/-! ## pairLow -/

@[simp] theorem pairLow_timeUs (d : Word) (s : State) : (pairLow d s).timeUs = s.timeUs := rfl
@[simp] theorem pairLow_lastEdge (d : Word) (s : State) : (pairLow d s).lastEdge = s.lastEdge := rfl
@[simp] theorem pairLow_mode (d : Word) (s : State) : (pairLow d s).mode = s.mode := rfl
@[simp] theorem pairLow_pendValid (d : Word) (s : State) : (pairLow d s).pendValid = true := rfl
@[simp] theorem pairLow_pendDur (d : Word) (s : State) : (pairLow d s).pendDur = d := rfl
@[simp] theorem pairLow_pqBuf (d : Word) (s : State) : (pairLow d s).pqBuf = s.pqBuf := rfl
@[simp] theorem pairLow_pqHead (d : Word) (s : State) : (pairLow d s).pqHead = s.pqHead := rfl
@[simp] theorem pairLow_pqCount (d : Word) (s : State) : (pairLow d s).pqCount = s.pqCount := rfl
@[simp] theorem pairLow_frBuf (d : Word) (s : State) : (pairLow d s).frBuf = s.frBuf := rfl
@[simp] theorem pairLow_frLen (d : Word) (s : State) : (pairLow d s).frLen = s.frLen := rfl
@[simp] theorem pairLow_frCur (d : Word) (s : State) : (pairLow d s).frCur = s.frCur := rfl
@[simp] theorem pairLow_frBidx (d : Word) (s : State) : (pairLow d s).frBidx = s.frBidx := rfl
@[simp] theorem pairLow_frSrc (d : Word) (s : State) : (pairLow d s).frSrc = s.frSrc := rfl
@[simp] theorem pairLow_frStarted (d : Word) (s : State) : (pairLow d s).frStarted = s.frStarted := rfl
@[simp] theorem pairLow_frFinalized (d : Word) (s : State) : (pairLow d s).frFinalized = s.frFinalized := rfl
@[simp] theorem pairLow_frTimeMs (d : Word) (s : State) : (pairLow d s).frTimeMs = s.frTimeMs := rfl
@[simp] theorem pairLow_ctrlKnown (d : Word) (s : State) : (pairLow d s).ctrlKnown = s.ctrlKnown := rfl
@[simp] theorem pairLow_lastCtrlMs (d : Word) (s : State) : (pairLow d s).lastCtrlMs = s.lastCtrlMs := rfl
@[simp] theorem pairLow_lastHeaterMs (d : Word) (s : State) : (pairLow d s).lastHeaterMs = s.lastHeaterMs := rfl
@[simp] theorem pairLow_txqBuf (d : Word) (s : State) : (pairLow d s).txqBuf = s.txqBuf := rfl
@[simp] theorem pairLow_txqHead (d : Word) (s : State) : (pairLow d s).txqHead = s.txqHead := rfl
@[simp] theorem pairLow_txqCount (d : Word) (s : State) : (pairLow d s).txqCount = s.txqCount := rfl
@[simp] theorem pairLow_txNotify (d : Word) (s : State) : (pairLow d s).txNotify = s.txNotify := rfl
@[simp] theorem pairLow_txPkt (d : Word) (s : State) : (pairLow d s).txPkt = s.txPkt := rfl
@[simp] theorem pairLow_txNseg (d : Word) (s : State) : (pairLow d s).txNseg = s.txNseg := rfl
@[simp] theorem pairLow_txSeg (d : Word) (s : State) : (pairLow d s).txSeg = s.txSeg := rfl
@[simp] theorem pairLow_txDeadline (d : Word) (s : State) : (pairLow d s).txDeadline = s.txDeadline := rfl
@[simp] theorem pairLow_txEver (d : Word) (s : State) : (pairLow d s).txEver = s.txEver := rfl
@[simp] theorem pairLow_lastTxEndUs (d : Word) (s : State) : (pairLow d s).lastTxEndUs = s.lastTxEndUs := rfl
@[simp] theorem pairLow_passive (d : Word) (s : State) : (pairLow d s).passive = s.passive := rfl
@[simp] theorem pairLow_busDrive (d : Word) (s : State) : (pairLow d s).busDrive = s.busDrive := rfl
@[simp] theorem pairLow_history (d : Word) (s : State) : (pairLow d s).history = s.history := rfl
@[simp] theorem pairLow_agenda (d : Word) (s : State) : (pairLow d s).agenda = s.agenda := rfl

/-! ## frReset -/

@[simp] theorem frReset_timeUs (s : State) : (frReset s).timeUs = s.timeUs := rfl
@[simp] theorem frReset_lastEdge (s : State) : (frReset s).lastEdge = s.lastEdge := rfl
@[simp] theorem frReset_mode (s : State) : (frReset s).mode = s.mode := rfl
@[simp] theorem frReset_pendValid (s : State) : (frReset s).pendValid = s.pendValid := rfl
@[simp] theorem frReset_pendDur (s : State) : (frReset s).pendDur = s.pendDur := rfl
@[simp] theorem frReset_pqBuf (s : State) : (frReset s).pqBuf = s.pqBuf := rfl
@[simp] theorem frReset_pqHead (s : State) : (frReset s).pqHead = s.pqHead := rfl
@[simp] theorem frReset_pqCount (s : State) : (frReset s).pqCount = s.pqCount := rfl
@[simp] theorem frReset_frBuf (s : State) : (frReset s).frBuf = zeroBytes := rfl
@[simp] theorem frReset_frLen (s : State) : (frReset s).frLen = 0 := rfl
@[simp] theorem frReset_frCur (s : State) : (frReset s).frCur = 0 := rfl
@[simp] theorem frReset_frBidx (s : State) : (frReset s).frBidx = 0 := rfl
@[simp] theorem frReset_frSrc (s : State) : (frReset s).frSrc = .unknown := rfl
@[simp] theorem frReset_frStarted (s : State) : (frReset s).frStarted = false := rfl
@[simp] theorem frReset_frFinalized (s : State) : (frReset s).frFinalized = false := rfl
@[simp] theorem frReset_frTimeMs (s : State) : (frReset s).frTimeMs = 0 := rfl
@[simp] theorem frReset_ctrlKnown (s : State) : (frReset s).ctrlKnown = s.ctrlKnown := rfl
@[simp] theorem frReset_lastCtrlMs (s : State) : (frReset s).lastCtrlMs = s.lastCtrlMs := rfl
@[simp] theorem frReset_lastHeaterMs (s : State) : (frReset s).lastHeaterMs = s.lastHeaterMs := rfl
@[simp] theorem frReset_txqBuf (s : State) : (frReset s).txqBuf = s.txqBuf := rfl
@[simp] theorem frReset_txqHead (s : State) : (frReset s).txqHead = s.txqHead := rfl
@[simp] theorem frReset_txqCount (s : State) : (frReset s).txqCount = s.txqCount := rfl
@[simp] theorem frReset_txNotify (s : State) : (frReset s).txNotify = s.txNotify := rfl
@[simp] theorem frReset_txPkt (s : State) : (frReset s).txPkt = s.txPkt := rfl
@[simp] theorem frReset_txNseg (s : State) : (frReset s).txNseg = s.txNseg := rfl
@[simp] theorem frReset_txSeg (s : State) : (frReset s).txSeg = s.txSeg := rfl
@[simp] theorem frReset_txDeadline (s : State) : (frReset s).txDeadline = s.txDeadline := rfl
@[simp] theorem frReset_txEver (s : State) : (frReset s).txEver = s.txEver := rfl
@[simp] theorem frReset_lastTxEndUs (s : State) : (frReset s).lastTxEndUs = s.lastTxEndUs := rfl
@[simp] theorem frReset_passive (s : State) : (frReset s).passive = s.passive := rfl
@[simp] theorem frReset_busDrive (s : State) : (frReset s).busDrive = s.busDrive := rfl
@[simp] theorem frReset_history (s : State) : (frReset s).history = s.history := rfl
@[simp] theorem frReset_agenda (s : State) : (frReset s).agenda = s.agenda := rfl

/-! ## frStart -/

@[simp] theorem frStart_timeUs (s : State) : (frStart s).timeUs = s.timeUs := rfl
@[simp] theorem frStart_lastEdge (s : State) : (frStart s).lastEdge = s.lastEdge := rfl
@[simp] theorem frStart_mode (s : State) : (frStart s).mode = s.mode := rfl
@[simp] theorem frStart_pendValid (s : State) : (frStart s).pendValid = s.pendValid := rfl
@[simp] theorem frStart_pendDur (s : State) : (frStart s).pendDur = s.pendDur := rfl
@[simp] theorem frStart_pqBuf (s : State) : (frStart s).pqBuf = s.pqBuf := rfl
@[simp] theorem frStart_pqHead (s : State) : (frStart s).pqHead = s.pqHead := rfl
@[simp] theorem frStart_pqCount (s : State) : (frStart s).pqCount = s.pqCount := rfl
@[simp] theorem frStart_frBuf (s : State) : (frStart s).frBuf = zeroBytes := rfl
@[simp] theorem frStart_frLen (s : State) : (frStart s).frLen = 0 := rfl
@[simp] theorem frStart_frCur (s : State) : (frStart s).frCur = 0 := rfl
@[simp] theorem frStart_frBidx (s : State) : (frStart s).frBidx = 0 := rfl
@[simp] theorem frStart_frSrc (s : State) : (frStart s).frSrc = .unknown := rfl
@[simp] theorem frStart_frStarted (s : State) : (frStart s).frStarted = true := rfl
@[simp] theorem frStart_frFinalized (s : State) : (frStart s).frFinalized = false := rfl
@[simp] theorem frStart_frTimeMs (s : State) : (frStart s).frTimeMs = nowMs s := rfl
@[simp] theorem frStart_ctrlKnown (s : State) : (frStart s).ctrlKnown = s.ctrlKnown := rfl
@[simp] theorem frStart_lastCtrlMs (s : State) : (frStart s).lastCtrlMs = s.lastCtrlMs := rfl
@[simp] theorem frStart_lastHeaterMs (s : State) : (frStart s).lastHeaterMs = s.lastHeaterMs := rfl
@[simp] theorem frStart_txqBuf (s : State) : (frStart s).txqBuf = s.txqBuf := rfl
@[simp] theorem frStart_txqHead (s : State) : (frStart s).txqHead = s.txqHead := rfl
@[simp] theorem frStart_txqCount (s : State) : (frStart s).txqCount = s.txqCount := rfl
@[simp] theorem frStart_txNotify (s : State) : (frStart s).txNotify = s.txNotify := rfl
@[simp] theorem frStart_txPkt (s : State) : (frStart s).txPkt = s.txPkt := rfl
@[simp] theorem frStart_txNseg (s : State) : (frStart s).txNseg = s.txNseg := rfl
@[simp] theorem frStart_txSeg (s : State) : (frStart s).txSeg = s.txSeg := rfl
@[simp] theorem frStart_txDeadline (s : State) : (frStart s).txDeadline = s.txDeadline := rfl
@[simp] theorem frStart_txEver (s : State) : (frStart s).txEver = s.txEver := rfl
@[simp] theorem frStart_lastTxEndUs (s : State) : (frStart s).lastTxEndUs = s.lastTxEndUs := rfl
@[simp] theorem frStart_passive (s : State) : (frStart s).passive = s.passive := rfl
@[simp] theorem frStart_busDrive (s : State) : (frStart s).busDrive = s.busDrive := rfl
@[simp] theorem frStart_history (s : State) : (frStart s).history = s.history := rfl
@[simp] theorem frStart_agenda (s : State) : (frStart s).agenda = s.agenda := rfl

/-! ## burstStart -/

@[simp] theorem burstStart_timeUs (s : State) : (burstStart s).timeUs = s.timeUs := rfl
@[simp] theorem burstStart_lastEdge (s : State) : (burstStart s).lastEdge = s.lastEdge := rfl
@[simp] theorem burstStart_mode (s : State) : (burstStart s).mode = .transmit := rfl
@[simp] theorem burstStart_pendValid (s : State) : (burstStart s).pendValid = s.pendValid := rfl
@[simp] theorem burstStart_pendDur (s : State) : (burstStart s).pendDur = s.pendDur := rfl
@[simp] theorem burstStart_pqBuf (s : State) : (burstStart s).pqBuf = s.pqBuf := rfl
@[simp] theorem burstStart_pqHead (s : State) : (burstStart s).pqHead = s.pqHead := rfl
@[simp] theorem burstStart_pqCount (s : State) : (burstStart s).pqCount = s.pqCount := rfl
@[simp] theorem burstStart_frBuf (s : State) : (burstStart s).frBuf = s.frBuf := rfl
@[simp] theorem burstStart_frLen (s : State) : (burstStart s).frLen = s.frLen := rfl
@[simp] theorem burstStart_frCur (s : State) : (burstStart s).frCur = s.frCur := rfl
@[simp] theorem burstStart_frBidx (s : State) : (burstStart s).frBidx = s.frBidx := rfl
@[simp] theorem burstStart_frSrc (s : State) : (burstStart s).frSrc = s.frSrc := rfl
@[simp] theorem burstStart_frStarted (s : State) : (burstStart s).frStarted = s.frStarted := rfl
@[simp] theorem burstStart_frFinalized (s : State) : (burstStart s).frFinalized = s.frFinalized := rfl
@[simp] theorem burstStart_frTimeMs (s : State) : (burstStart s).frTimeMs = s.frTimeMs := rfl
@[simp] theorem burstStart_ctrlKnown (s : State) : (burstStart s).ctrlKnown = s.ctrlKnown := rfl
@[simp] theorem burstStart_lastCtrlMs (s : State) : (burstStart s).lastCtrlMs = s.lastCtrlMs := rfl
@[simp] theorem burstStart_lastHeaterMs (s : State) : (burstStart s).lastHeaterMs = s.lastHeaterMs := rfl
@[simp] theorem burstStart_txqBuf (s : State) : (burstStart s).txqBuf = s.txqBuf := rfl
@[simp] theorem burstStart_txqHead (s : State) : (burstStart s).txqHead = (s.txqHead + 1) % Config.txqCap := rfl
@[simp] theorem burstStart_txqCount (s : State) : (burstStart s).txqCount = s.txqCount - 1 := rfl
@[simp] theorem burstStart_txNotify (s : State) : (burstStart s).txNotify = s.txNotify := rfl
@[simp] theorem burstStart_txPkt (s : State) : (burstStart s).txPkt = txqFront s := rfl
@[simp] theorem burstStart_txNseg (s : State) : (burstStart s).txNseg = BitVec.ofNat 16 (nseg (txqFront s).len) := rfl
@[simp] theorem burstStart_txSeg (s : State) : (burstStart s).txSeg = 0 := rfl
@[simp] theorem burstStart_txDeadline (s : State) : (burstStart s).txDeadline = s.timeUs := rfl
@[simp] theorem burstStart_txEver (s : State) : (burstStart s).txEver = s.txEver := rfl
@[simp] theorem burstStart_lastTxEndUs (s : State) : (burstStart s).lastTxEndUs = s.lastTxEndUs := rfl
@[simp] theorem burstStart_passive (s : State) : (burstStart s).passive = s.passive := rfl
@[simp] theorem burstStart_busDrive (s : State) : (burstStart s).busDrive = s.busDrive := rfl
@[simp] theorem burstStart_history (s : State) : (burstStart s).history = s.history := rfl
@[simp] theorem burstStart_agenda (s : State) : (burstStart s).agenda = s.agenda := rfl

/-! ## driveSegment -/

@[simp] theorem driveSegment_timeUs (s : State) : (driveSegment s).timeUs = s.timeUs := rfl
@[simp] theorem driveSegment_lastEdge (s : State) : (driveSegment s).lastEdge = s.lastEdge := rfl
@[simp] theorem driveSegment_mode (s : State) : (driveSegment s).mode = s.mode := rfl
@[simp] theorem driveSegment_pendValid (s : State) : (driveSegment s).pendValid = s.pendValid := rfl
@[simp] theorem driveSegment_pendDur (s : State) : (driveSegment s).pendDur = s.pendDur := rfl
@[simp] theorem driveSegment_pqBuf (s : State) : (driveSegment s).pqBuf = s.pqBuf := rfl
@[simp] theorem driveSegment_pqHead (s : State) : (driveSegment s).pqHead = s.pqHead := rfl
@[simp] theorem driveSegment_pqCount (s : State) : (driveSegment s).pqCount = s.pqCount := rfl
@[simp] theorem driveSegment_frBuf (s : State) : (driveSegment s).frBuf = s.frBuf := rfl
@[simp] theorem driveSegment_frLen (s : State) : (driveSegment s).frLen = s.frLen := rfl
@[simp] theorem driveSegment_frCur (s : State) : (driveSegment s).frCur = s.frCur := rfl
@[simp] theorem driveSegment_frBidx (s : State) : (driveSegment s).frBidx = s.frBidx := rfl
@[simp] theorem driveSegment_frSrc (s : State) : (driveSegment s).frSrc = s.frSrc := rfl
@[simp] theorem driveSegment_frStarted (s : State) : (driveSegment s).frStarted = s.frStarted := rfl
@[simp] theorem driveSegment_frFinalized (s : State) : (driveSegment s).frFinalized = s.frFinalized := rfl
@[simp] theorem driveSegment_frTimeMs (s : State) : (driveSegment s).frTimeMs = s.frTimeMs := rfl
@[simp] theorem driveSegment_ctrlKnown (s : State) : (driveSegment s).ctrlKnown = s.ctrlKnown := rfl
@[simp] theorem driveSegment_lastCtrlMs (s : State) : (driveSegment s).lastCtrlMs = s.lastCtrlMs := rfl
@[simp] theorem driveSegment_lastHeaterMs (s : State) : (driveSegment s).lastHeaterMs = s.lastHeaterMs := rfl
@[simp] theorem driveSegment_txqBuf (s : State) : (driveSegment s).txqBuf = s.txqBuf := rfl
@[simp] theorem driveSegment_txqHead (s : State) : (driveSegment s).txqHead = s.txqHead := rfl
@[simp] theorem driveSegment_txqCount (s : State) : (driveSegment s).txqCount = s.txqCount := rfl
@[simp] theorem driveSegment_txNotify (s : State) : (driveSegment s).txNotify = s.txNotify := rfl
@[simp] theorem driveSegment_txPkt (s : State) : (driveSegment s).txPkt = s.txPkt := rfl
@[simp] theorem driveSegment_txNseg (s : State) : (driveSegment s).txNseg = s.txNseg := rfl
@[simp] theorem driveSegment_txSeg (s : State) : (driveSegment s).txSeg = s.txSeg + 1 := rfl
@[simp] theorem driveSegment_txDeadline (s : State) : (driveSegment s).txDeadline = deadlineAfter s.txDeadline (segAt s.txPkt s.txSeg.toNat).2 := rfl
@[simp] theorem driveSegment_txEver (s : State) : (driveSegment s).txEver = s.txEver := rfl
@[simp] theorem driveSegment_lastTxEndUs (s : State) : (driveSegment s).lastTxEndUs = s.lastTxEndUs := rfl
@[simp] theorem driveSegment_passive (s : State) : (driveSegment s).passive = s.passive := rfl
@[simp] theorem driveSegment_busDrive (s : State) : (driveSegment s).busDrive = driveOf (segAt s.txPkt s.txSeg.toNat).1 := rfl
@[simp] theorem driveSegment_history (s : State) : (driveSegment s).history = s.history ++ [⟨s.timeUs, .seg (segAt s.txPkt s.txSeg.toNat).1 (segAt s.txPkt s.txSeg.toNat).2⟩] := rfl
@[simp] theorem driveSegment_agenda (s : State) : (driveSegment s).agenda = s.agenda := rfl

/-! ## endBurst -/

@[simp] theorem endBurst_timeUs (s : State) : (endBurst s).timeUs = s.timeUs := rfl
@[simp] theorem endBurst_lastEdge (s : State) : (endBurst s).lastEdge = s.timeUs.setWidth 32 := rfl
@[simp] theorem endBurst_mode (s : State) : (endBurst s).mode = .receive := rfl
@[simp] theorem endBurst_pendValid (s : State) : (endBurst s).pendValid = false := rfl
@[simp] theorem endBurst_pendDur (s : State) : (endBurst s).pendDur = 0 := rfl
@[simp] theorem endBurst_pqBuf (s : State) : (endBurst s).pqBuf = s.pqBuf := rfl
@[simp] theorem endBurst_pqHead (s : State) : (endBurst s).pqHead = s.pqHead := rfl
@[simp] theorem endBurst_pqCount (s : State) : (endBurst s).pqCount = s.pqCount := rfl
@[simp] theorem endBurst_frBuf (s : State) : (endBurst s).frBuf = zeroBytes := rfl
@[simp] theorem endBurst_frLen (s : State) : (endBurst s).frLen = 0 := rfl
@[simp] theorem endBurst_frCur (s : State) : (endBurst s).frCur = 0 := rfl
@[simp] theorem endBurst_frBidx (s : State) : (endBurst s).frBidx = 0 := rfl
@[simp] theorem endBurst_frSrc (s : State) : (endBurst s).frSrc = .unknown := rfl
@[simp] theorem endBurst_frStarted (s : State) : (endBurst s).frStarted = false := rfl
@[simp] theorem endBurst_frFinalized (s : State) : (endBurst s).frFinalized = false := rfl
@[simp] theorem endBurst_frTimeMs (s : State) : (endBurst s).frTimeMs = 0 := rfl
@[simp] theorem endBurst_ctrlKnown (s : State) : (endBurst s).ctrlKnown = s.ctrlKnown := rfl
@[simp] theorem endBurst_lastCtrlMs (s : State) : (endBurst s).lastCtrlMs = s.lastCtrlMs := rfl
@[simp] theorem endBurst_lastHeaterMs (s : State) : (endBurst s).lastHeaterMs = s.lastHeaterMs := rfl
@[simp] theorem endBurst_txqBuf (s : State) : (endBurst s).txqBuf = s.txqBuf := rfl
@[simp] theorem endBurst_txqHead (s : State) : (endBurst s).txqHead = s.txqHead := rfl
@[simp] theorem endBurst_txqCount (s : State) : (endBurst s).txqCount = s.txqCount := rfl
@[simp] theorem endBurst_txNotify (s : State) : (endBurst s).txNotify = s.txNotify := rfl
@[simp] theorem endBurst_txPkt (s : State) : (endBurst s).txPkt = Packet.zero := rfl
@[simp] theorem endBurst_txNseg (s : State) : (endBurst s).txNseg = 0 := rfl
@[simp] theorem endBurst_txSeg (s : State) : (endBurst s).txSeg = 0 := rfl
@[simp] theorem endBurst_txDeadline (s : State) : (endBurst s).txDeadline = 0 := rfl
@[simp] theorem endBurst_txEver (s : State) : (endBurst s).txEver = true := rfl
@[simp] theorem endBurst_lastTxEndUs (s : State) : (endBurst s).lastTxEndUs = s.timeUs := rfl
@[simp] theorem endBurst_passive (s : State) : (endBurst s).passive = s.passive := rfl
@[simp] theorem endBurst_busDrive (s : State) : (endBurst s).busDrive = .released := rfl
@[simp] theorem endBurst_history (s : State) : (endBurst s).history = s.history ++ [⟨s.timeUs, .release⟩] := rfl
@[simp] theorem endBurst_agenda (s : State) : (endBurst s).agenda = s.agenda := rfl

/-! ## resetBlock -/

@[simp] theorem resetBlock_timeUs (s : State) : (resetBlock s).timeUs = s.timeUs := rfl
@[simp] theorem resetBlock_lastEdge (s : State) : (resetBlock s).lastEdge = s.timeUs.setWidth 32 := rfl
@[simp] theorem resetBlock_mode (s : State) : (resetBlock s).mode = .receive := rfl
@[simp] theorem resetBlock_pendValid (s : State) : (resetBlock s).pendValid = false := rfl
@[simp] theorem resetBlock_pendDur (s : State) : (resetBlock s).pendDur = 0 := rfl
@[simp] theorem resetBlock_pqBuf (s : State) : (resetBlock s).pqBuf = [] := rfl
@[simp] theorem resetBlock_pqHead (s : State) : (resetBlock s).pqHead = 0 := rfl
@[simp] theorem resetBlock_pqCount (s : State) : (resetBlock s).pqCount = 0 := rfl
@[simp] theorem resetBlock_frBuf (s : State) : (resetBlock s).frBuf = zeroBytes := rfl
@[simp] theorem resetBlock_frLen (s : State) : (resetBlock s).frLen = 0 := rfl
@[simp] theorem resetBlock_frCur (s : State) : (resetBlock s).frCur = 0 := rfl
@[simp] theorem resetBlock_frBidx (s : State) : (resetBlock s).frBidx = 0 := rfl
@[simp] theorem resetBlock_frSrc (s : State) : (resetBlock s).frSrc = .unknown := rfl
@[simp] theorem resetBlock_frStarted (s : State) : (resetBlock s).frStarted = false := rfl
@[simp] theorem resetBlock_frFinalized (s : State) : (resetBlock s).frFinalized = false := rfl
@[simp] theorem resetBlock_frTimeMs (s : State) : (resetBlock s).frTimeMs = 0 := rfl
@[simp] theorem resetBlock_ctrlKnown (s : State) : (resetBlock s).ctrlKnown = false := rfl
@[simp] theorem resetBlock_lastCtrlMs (s : State) : (resetBlock s).lastCtrlMs = 0 := rfl
@[simp] theorem resetBlock_lastHeaterMs (s : State) : (resetBlock s).lastHeaterMs = nowMs s := rfl
@[simp] theorem resetBlock_txqBuf (s : State) : (resetBlock s).txqBuf = [] := rfl
@[simp] theorem resetBlock_txqHead (s : State) : (resetBlock s).txqHead = 0 := rfl
@[simp] theorem resetBlock_txqCount (s : State) : (resetBlock s).txqCount = 0 := rfl
@[simp] theorem resetBlock_txNotify (s : State) : (resetBlock s).txNotify = false := rfl
@[simp] theorem resetBlock_txPkt (s : State) : (resetBlock s).txPkt = Packet.zero := rfl
@[simp] theorem resetBlock_txNseg (s : State) : (resetBlock s).txNseg = 0 := rfl
@[simp] theorem resetBlock_txSeg (s : State) : (resetBlock s).txSeg = 0 := rfl
@[simp] theorem resetBlock_txDeadline (s : State) : (resetBlock s).txDeadline = 0 := rfl
@[simp] theorem resetBlock_txEver (s : State) : (resetBlock s).txEver = false := rfl
@[simp] theorem resetBlock_lastTxEndUs (s : State) : (resetBlock s).lastTxEndUs = 0 := rfl
@[simp] theorem resetBlock_passive (s : State) : (resetBlock s).passive = true := rfl
@[simp] theorem resetBlock_busDrive (s : State) : (resetBlock s).busDrive = .released := rfl
@[simp] theorem resetBlock_history (s : State) : (resetBlock s).history = s.history := rfl
@[simp] theorem resetBlock_agenda (s : State) : (resetBlock s).agenda = s.agenda := rfl

end Sys2Proof.Machine
end

