-- ==== Sys2Proof/Laws/Storage.lean ====
section
/-! SUPPORT. The storage of the queues: read after write, and the canonical form; and the two queues as first-in first-out
lists that drop their oldest element. -/

namespace Sys2Proof.Machine

open Sys2Proof

section Slots

variable {α : Type}

/-- An entry that has just been written reads as written. -/
@[simp] theorem slotRead_slotWrite_same (i : Nat) (v : α) (l : List (Nat × α)) :
    slotRead i (slotWrite i v l) = some v := by
  induction l with
  | nil => simp [slotWrite, slotRead]
  | cons p rest ih =>
    obtain ⟨j, w⟩ := p
    by_cases h1 : i < j
    · simp [slotWrite, slotRead, h1]
    · by_cases h2 : i = j
      · simp [slotWrite, slotRead, h2]
      · simp [slotWrite, slotRead, h1, h2, ih]

/-- A write leaves every other entry alone. -/
theorem slotRead_slotWrite_other {i j : Nat} (h : j ≠ i) (v : α) (l : List (Nat × α)) :
    slotRead j (slotWrite i v l) = slotRead j l := by
  induction l with
  | nil => simp [slotWrite, slotRead, h]
  | cons p rest ih =>
    obtain ⟨k, w⟩ := p
    by_cases h1 : i < k
    · simp [slotWrite, slotRead, h1, h]
    · by_cases h2 : i = k
      · subst h2; simp [slotWrite, slotRead, h]
      · simp [slotWrite, slotRead, h1, h2, ih]

/-- An index of the written list is the written one or an old one. -/
theorem mem_slotWrite {i : Nat} {v : α} {l : List (Nat × α)} {p : Nat × α} (h : p ∈ slotWrite i v l) :
    p.1 = i ∨ p ∈ l := by
  induction l with
  | nil =>
    simp only [slotWrite, List.mem_singleton] at h
    simp [h]
  | cons q rest ih =>
    obtain ⟨j, w⟩ := q
    simp only [slotWrite] at h
    split at h
    · rcases List.mem_cons.1 h with h | h
      · exact .inl (by simp [h])
      · exact .inr h
    · split at h
      · rcases List.mem_cons.1 h with h | h
        · exact .inl (by simp [h])
        · exact .inr (List.mem_cons_of_mem _ h)
      · rcases List.mem_cons.1 h with h | h
        · exact .inr (by simp [h])
        · exact (ih h).imp_right (List.mem_cons_of_mem _)

/-- A write keeps the canonical form. -/
theorem slotWrite_sorted {i : Nat} {v : α} {l : List (Nat × α)} (h : slotsSorted l) :
    slotsSorted (slotWrite i v l) := by
  induction l with
  | nil => simp [slotWrite, slotsSorted]
  | cons p rest ih =>
    obtain ⟨j, w⟩ := p
    obtain ⟨hj, hrest⟩ := List.pairwise_cons.1 h
    simp only [slotWrite]
    split
    · rename_i hij
      refine List.pairwise_cons.2 ⟨fun q hq => ?_, h⟩
      rcases List.mem_cons.1 hq with rfl | hq
      · exact hij
      · exact Nat.lt_trans hij (hj q hq)
    · split
      · rename_i hij
        subst hij
        exact List.pairwise_cons.2 ⟨hj, hrest⟩
      · rename_i h1 h2
        refine List.pairwise_cons.2 ⟨fun q hq => ?_, ih hrest⟩
        rcases mem_slotWrite hq with hq | hq
        · simp only; omega
        · exact hj q hq

end Slots

/-- Two different places of a ring do not meet. -/
theorem ring_index_ne {cap head k n : Nat} (hk : k < n) (hn : n < cap) : (head + k) % cap ≠ (head + n) % cap := by
  intro h
  have h0 : 0 < cap := by omega
  have e1 := Nat.div_add_mod (head + k) cap
  have e2 := Nat.div_add_mod (head + n) cap
  rw [h] at e1
  have : cap * ((head + n) / cap) = cap * ((head + k) / cap) + (n - k) := by omega
  have hd : (n - k) % cap = 0 := by
    have : n - k = cap * ((head + n) / cap) - cap * ((head + k) / cap) := by omega
    rw [this, ← Nat.mul_sub]; exact Nat.mul_mod_right _ _
  rw [Nat.mod_eq_of_lt (by omega)] at hd
  omega

/-- The place after the head, counted from the head or from its successor. -/
theorem ring_index_succ (cap head k : Nat) : ((head + 1) % cap + k) % cap = (head + (k + 1)) % cap := by
  rw [Nat.mod_add_mod]; congr 1; omega

/-- A list read off a ring: its first element is at the head, the others are what a head moved on by one reads. -/
theorem ring_pop {β : Type} (f : Nat → β) {cap head : Nat} (h : head < cap) (n : Nat) :
    (List.range (n + 1)).map (fun k => f ((head + k) % cap)) =
      f head :: (List.range n).map fun k => f (((head + 1) % cap + k) % cap) := by
  rw [List.range_succ_eq_map, List.map_cons, List.map_map, Nat.add_zero, Nat.mod_eq_of_lt h]
  congr 1
  exact List.map_congr_left fun k _ => by simp only [Function.comp, ring_index_succ, Nat.succ_eq_add_one]

/-- A ring that is not full and is written behind its last element reads as before, with the new element last. -/
theorem ring_push {β : Type} (f g : Nat → β) {cap head n : Nat} (v : β) (hn : n < cap)
    (hv : g ((head + n) % cap) = v) (ho : ∀ j, j ≠ (head + n) % cap → g j = f j) :
    (List.range (n + 1)).map (fun k => g ((head + k) % cap)) =
      (List.range n).map (fun k => f ((head + k) % cap)) ++ [v] := by
  rw [List.range_succ, List.map_append, List.map_singleton, hv]
  congr 1
  exact List.map_congr_left fun k hk => ho _ (ring_index_ne (List.mem_range.1 hk) hn)

/-! ## The pulse ring -/

/-- A pop leaves the storage alone. -/
@[simp] theorem pqEntry_drop (s : State) (i : Nat) : pqEntry (pqDrop s) i = pqEntry s i := rfl

@[simp] theorem pqContents_length (s : State) : (pqContents s).length = s.pqCount := by simp [pqContents]

/-- The ring's contents depend on the ring alone. -/
theorem pqContents_congr {s t : State} (h1 : t.pqBuf = s.pqBuf) (h2 : t.pqHead = s.pqHead) (h3 : t.pqCount = s.pqCount) :
    pqContents t = pqContents s := by
  simp [pqContents, pqEntry, h1, h2, h3]

/-- A pop takes the oldest record (20_memory.md R64). -/
theorem pqContents_pop {s : State} (hh : s.pqHead < Config.pqCap) (h : 0 < s.pqCount) :
    pqContents s = pqFront s :: pqContents (pqDrop s) := by
  obtain ⟨n, hn⟩ : ∃ n, s.pqCount = n + 1 := ⟨s.pqCount - 1, by omega⟩
  have := ring_pop (pqEntry s) hh n
  simpa only [pqContents, hn, pqEntry_drop, pqFront, pqDrop_pqCount, pqDrop_pqHead, Nat.add_sub_cancel] using this

/-- A record stored in a ring that is not full is the newest one (20_memory.md R63). -/
theorem pqContents_store (rec : PulseRecord) {s : State} (h : s.pqCount < Config.pqCap) :
    pqContents (pqStore rec s) = pqContents s ++ [rec] := by
  refine ring_push (pqEntry s) (pqEntry (pqStore rec s)) rec h ?_ fun j hj => ?_
  · simp [pqEntry]
  · have hj : j ≠ (s.pqHead + s.pqCount) % Config.pqCap := hj
    simp [pqEntry, slotRead_slotWrite_other hj]

/-- Dropping the oldest record of the ring (20_memory.md R63, R64). -/
theorem pqContents_drop (s : State) : pqContents (pqDrop s) = (pqContents s).drop 1 := by
  rcases Nat.eq_zero_or_pos s.pqCount with h | h
  · simp [pqContents, h]
  · obtain ⟨n, hn⟩ : ∃ n, s.pqCount = n + 1 := ⟨s.pqCount - 1, by omega⟩
    simp only [pqContents, pqDrop_pqCount, pqDrop_pqHead, hn, Nat.add_sub_cancel, List.range_succ_eq_map,
      List.map_cons, List.drop_one, List.tail_cons, List.map_map]
    refine List.map_congr_left fun k _ => ?_
    show pqEntry s _ = _
    simp only [Function.comp, ring_index_succ, Nat.succ_eq_add_one]

/-- The two cases of making room in the ring (20_memory.md R63). -/
theorem pqMakeRoom_cases (s : State) :
    (s.pqCount = Config.pqCap ∧ pqMakeRoom s = pqDrop s) ∨ (s.pqCount ≠ Config.pqCap ∧ pqMakeRoom s = s) := by
  by_cases h : s.pqCount = Config.pqCap
  · exact .inl ⟨h, by simp [pqMakeRoom, pqDrop, h]⟩
  · exact .inr ⟨h, by simp [pqMakeRoom, h]⟩

/-- A push puts the record behind the others; a full ring loses its oldest one (20_memory.md R63, R66). -/
theorem pqContents_push (rec : PulseRecord) {s : State} (h : s.pqCount ≤ Config.pqCap) :
    pqContents (pqPush rec s) =
      (if s.pqCount = Config.pqCap then (pqContents s).drop 1 else pqContents s) ++ [rec] := by
  have hcap : 0 < Config.pqCap := by decide
  rcases pqMakeRoom_cases s with ⟨hf, hr⟩ | ⟨hf, hr⟩
  · rw [pqPush, hr, pqContents_store rec (by simp only [pqDrop_pqCount]; omega), pqContents_drop, if_pos hf]
  · rw [pqPush, hr, pqContents_store rec (by omega), if_neg hf]

/-- A push counts up to the capacity (20_memory.md R63). -/
theorem pqPush_pqCount (rec : PulseRecord) {s : State} (h : s.pqCount ≤ Config.pqCap) :
    (pqPush rec s).pqCount = min (s.pqCount + 1) Config.pqCap := by
  have hcap : 0 < Config.pqCap := by decide
  rcases pqMakeRoom_cases s with ⟨hf, hr⟩ | ⟨hf, hr⟩ <;> rw [pqPush, hr] <;>
    simp only [pqStore_pqCount, pqDrop_pqCount] <;> omega

/-- A push writes the ring and nothing else (40_capture.md R120). -/
theorem pqPush_frame (rec : PulseRecord) (s : State) : pqPush rec s = { s with
    pqBuf := (pqPush rec s).pqBuf, pqHead := (pqPush rec s).pqHead, pqCount := (pqPush rec s).pqCount } := by
  rcases pqMakeRoom_cases s with ⟨-, hr⟩ | ⟨-, hr⟩ <;> simp only [pqPush, hr] <;> rfl

/-! ## The outbound queue -/

/-- A pop leaves the storage alone. -/
@[simp] theorem txqEntry_drop (s : State) (i : Nat) : txqEntry (txqDrop s) i = txqEntry s i := rfl

@[simp] theorem txqContents_length (s : State) : (txqContents s).length = s.txqCount := by simp [txqContents]

/-- The queue's contents depend on the queue alone. -/
theorem txqContents_congr {s t : State} (h1 : t.txqBuf = s.txqBuf) (h2 : t.txqHead = s.txqHead)
    (h3 : t.txqCount = s.txqCount) : txqContents t = txqContents s := by
  simp [txqContents, txqEntry, h1, h2, h3]

/-- A pop takes the oldest packet (20_memory.md R69). -/
theorem txqContents_pop {s : State} (hh : s.txqHead < Config.txqCap) (h : 0 < s.txqCount) :
    txqContents s = txqFront s :: txqContents (txqDrop s) := by
  obtain ⟨n, hn⟩ : ∃ n, s.txqCount = n + 1 := ⟨s.txqCount - 1, by omega⟩
  have := ring_pop (txqEntry s) hh n
  simpa only [txqContents, hn, txqEntry_drop, txqFront, txqDrop_txqCount, txqDrop_txqHead, Nat.add_sub_cancel] using this

/-- A packet stored in a queue that is not full is the newest one (20_memory.md R68). -/
theorem txqContents_store (pkt : Packet) {s : State} (h : s.txqCount < Config.txqCap) :
    txqContents (txqStore pkt s) = txqContents s ++ [pkt] := by
  refine ring_push (txqEntry s) (txqEntry (txqStore pkt s)) pkt h ?_ fun j hj => ?_
  · simp [txqEntry]
  · have hj : j ≠ (s.txqHead + s.txqCount) % Config.txqCap := hj
    simp [txqEntry, slotRead_slotWrite_other hj]

/-- Dropping the oldest packet of the queue (20_memory.md R68, R69). -/
theorem txqContents_drop (s : State) : txqContents (txqDrop s) = (txqContents s).drop 1 := by
  rcases Nat.eq_zero_or_pos s.txqCount with h | h
  · simp [txqContents, h]
  · obtain ⟨n, hn⟩ : ∃ n, s.txqCount = n + 1 := ⟨s.txqCount - 1, by omega⟩
    simp only [txqContents, txqDrop_txqCount, txqDrop_txqHead, hn, Nat.add_sub_cancel, List.range_succ_eq_map,
      List.map_cons, List.drop_one, List.tail_cons, List.map_map]
    refine List.map_congr_left fun k _ => ?_
    show txqEntry s _ = _
    simp only [Function.comp, ring_index_succ, Nat.succ_eq_add_one]

/-- The two cases of making room in the queue; a drop is reported (20_memory.md R68). -/
theorem txqMakeRoom_cases (s : State) :
    (s.txqCount = Config.txqCap ∧ txqMakeRoom s = emit (.diag .txqOverflow .none 0) (txqDrop s))
    ∨ (s.txqCount ≠ Config.txqCap ∧ txqMakeRoom s = s) := by
  by_cases h : s.txqCount = Config.txqCap
  · exact .inl ⟨h, by simp [txqMakeRoom, txqDrop, emitDiag, h]⟩
  · exact .inr ⟨h, by simp [txqMakeRoom, h]⟩

/-- A push puts the packet behind the others; a full queue loses its oldest one (20_memory.md R68, R70). -/
theorem txqContents_push (pkt : Packet) {s : State} (h : s.txqCount ≤ Config.txqCap) :
    txqContents (txqPush pkt s) =
      (if s.txqCount = Config.txqCap then (txqContents s).drop 1 else txqContents s) ++ [pkt] := by
  have hcap : 0 < Config.txqCap := by decide
  rcases txqMakeRoom_cases s with ⟨hf, hr⟩ | ⟨hf, hr⟩
  · rw [txqPush, hr, txqContents_store pkt (by simp only [emit_txqCount, txqDrop_txqCount]; omega), if_pos hf,
      ← txqContents_drop]
    rfl
  · rw [txqPush, hr, txqContents_store pkt (by omega), if_neg hf]

/-- A push counts up to the capacity (20_memory.md R68). -/
theorem txqPush_txqCount (pkt : Packet) {s : State} (h : s.txqCount ≤ Config.txqCap) :
    (txqPush pkt s).txqCount = min (s.txqCount + 1) Config.txqCap := by
  have hcap : 0 < Config.txqCap := by decide
  rcases txqMakeRoom_cases s with ⟨hf, hr⟩ | ⟨hf, hr⟩ <;> rw [txqPush, hr] <;>
    simp only [txqStore_txqCount, emit_txqCount, txqDrop_txqCount] <;> omega

/-- A push writes the queue, notifies, and reports a drop; nothing else (20_memory.md R68). -/
theorem txqPush_frame (pkt : Packet) (s : State) : txqPush pkt s = { s with
    txqBuf := (txqPush pkt s).txqBuf, txqHead := (txqPush pkt s).txqHead, txqCount := (txqPush pkt s).txqCount
    txNotify := true
    history := s.history ++
      (if s.txqCount = Config.txqCap then [⟨s.timeUs, .diag .txqOverflow .none 0⟩] else []) } := by
  rcases txqMakeRoom_cases s with ⟨hf, hr⟩ | ⟨hf, hr⟩ <;> simp only [txqPush, hr]
  · rw [if_pos hf]; rfl
  · rw [if_neg hf, List.append_nil]; rfl

end Sys2Proof.Machine
end

