-- ==== Sys2Proof/Laws/Ops.lean ====
section
/-! SUPPORT. What each shared operation can do, once: the case lemmas that proofs cite instead of unfolding the operation. -/

namespace Sys2Proof.Machine

open Sys2Proof Sys2Proof.Safety

/-! ## Lengths -/

/-- The two byte counts that are a frame length (41_framer.md R143). -/
theorem frameLenOf_cases (n : BitVec 4) :
    (n ≠ 9 ∧ n ≠ 12 ∧ frameLenOf n = none) ∨ ∃ len : FrameLen, n.toNat = len.bytes ∧ frameLenOf n = some len := by
  by_cases h9 : n = 9
  · exact .inr ⟨.short, by subst h9; rfl, by simp [frameLenOf, h9]⟩
  · by_cases h12 : n = 12
    · exact .inr ⟨.long, by subst h12; rfl, by simp [frameLenOf, h12]⟩
    · exact .inl ⟨h9, h12, by rw [frameLenOf, if_neg h9, if_neg h12]⟩

/-- The window test as arithmetic (30_encoding.md R85). -/
theorem inWindow_iff (d : Word) (nom : Nat) : inWindow d nom = true ↔ nom - 600 ≤ d.toNat ∧ d.toNat ≤ nom + 600 := by
  rw [inWindow, Bool.and_eq_true, decide_eq_true_eq, decide_eq_true_eq, Config.tolUs]

/-! ## Capture -/

/-- The two cases of PAIR_HIGH (40_capture.md R113). -/
theorem pairHigh_cases (d : Word) (s : State) :
    (s.pendValid = true ∧
      pairHigh d s = { pqPush ⟨.low, s.pendDur, .high, d⟩ s with pendValid := false, pendDur := 0 })
    ∨ (s.pendValid = false ∧ pairHigh d s = s) := by
  cases h : s.pendValid
  · exact .inr ⟨rfl, by simp [pairHigh, h]⟩
  · exact .inl ⟨rfl, by simp [pairHigh, h]⟩

/-- The three cases of EDGE in Receive mode (40_capture.md R110–R113). -/
theorem captureEdge_cases (l : Level) (s : State) :
    (l = .high ∧ captureEdge l s = { s with
        lastEdge := s.timeUs.setWidth 32, pendDur := durSinceEdge s, pendValid := true })
    ∨ (l = .low ∧ s.pendValid = true ∧ captureEdge l s = { s with
        pqBuf := (pqPush ⟨.low, s.pendDur, .high, durSinceEdge s⟩ s).pqBuf
        pqHead := (pqPush ⟨.low, s.pendDur, .high, durSinceEdge s⟩ s).pqHead
        pqCount := (pqPush ⟨.low, s.pendDur, .high, durSinceEdge s⟩ s).pqCount
        lastEdge := s.timeUs.setWidth 32, pendDur := 0, pendValid := false })
    ∨ (l = .low ∧ s.pendValid = false ∧ captureEdge l s = { s with lastEdge := s.timeUs.setWidth 32 }) := by
  cases l with
  | high => exact .inl ⟨rfl, rfl⟩
  | low =>
    rcases pairHigh_cases (durSinceEdge s) { s with lastEdge := s.timeUs.setWidth 32 } with ⟨hv, h⟩ | ⟨hv, h⟩
    · refine .inr (.inl ⟨rfl, hv, ?_⟩)
      simp only [captureEdge, h, pqPush, pqMakeRoom]
      split <;> rfl
    · exact .inr (.inr ⟨rfl, hv, h⟩)

/-- CAP writes the ring and its own capture state, nothing else (40_capture.md R120). -/
theorem captureEdge_frame (l : Level) (s : State) : captureEdge l s = { s with
    pqBuf := (captureEdge l s).pqBuf, pqHead := (captureEdge l s).pqHead, pqCount := (captureEdge l s).pqCount
    pendValid := (captureEdge l s).pendValid, pendDur := (captureEdge l s).pendDur
    lastEdge := (captureEdge l s).lastEdge } := by
  rcases captureEdge_cases l s with ⟨-, h⟩ | ⟨-, -, h⟩ | ⟨-, -, h⟩ <;> rw [h]

/-! ## The framer -/

/-- The three cases of APPEND (41_framer.md R141). -/
theorem appendBit_cases (b : Bool) (s : State) :
    (s.frBidx ≠ 7 ∧ appendBit b s = { s with frCur := accumulate b s, frBidx := s.frBidx + 1 })
    ∨ (s.frBidx = 7 ∧ s.frLen = 12 ∧
        appendBit b s = frReset { s with history := s.history ++ [⟨s.timeUs, .diag .overlong .bit 12⟩] })
    ∨ (s.frBidx = 7 ∧ s.frLen ≠ 12 ∧ appendBit b s = { s with
        frBuf := s.frBuf.setIfInBounds s.frLen.toNat (accumulate b s)
        frLen := s.frLen + 1, frCur := 0, frBidx := 0 }) := by
  have hb : s.frBidx.toNat < 7 ↔ s.frBidx ≠ 7 := by
    rw [Ne, ← BitVec.toNat_inj]; have := s.frBidx.isLt; simp; omega
  have hl : s.frLen.toNat = Config.frMaxLen ↔ s.frLen = 12 := by
    rw [← BitVec.toNat_inj]; simp [Config.frMaxLen]
  have unfolded : appendBit b s =
      if s.frBidx.toNat < 7 then { s with frCur := accumulate b s, frBidx := s.frBidx + 1 }
      else if s.frLen.toNat = Config.frMaxLen then
        frReset { s with history := s.history ++ [⟨s.timeUs, .diag .overlong .bit s.frLen⟩] }
      else { s with
        frBuf := s.frBuf.setIfInBounds s.frLen.toNat (accumulate b s)
        frLen := s.frLen + 1, frCur := 0, frBidx := 0 } := rfl
  by_cases h1 : s.frBidx = 7
  · have hn : ¬s.frBidx.toNat < 7 := fun h => hb.1 h h1
    by_cases h2 : s.frLen = 12
    · exact .inr (.inl ⟨h1, h2, by rw [unfolded, if_neg hn, if_pos (hl.2 h2), h2]⟩)
    · exact .inr (.inr ⟨h1, h2, by rw [unfolded, if_neg hn, if_neg fun h => h2 (hl.1 h)]⟩)
  · exact .inl ⟨h1, by rw [unfolded, if_pos (hb.2 h1)]⟩

/-- VALIDATE looks only at the L bytes of the candidate. -/
theorem validate_take (buf : List Byte) (len : FrameLen) : validate (buf.take len.bytes) len = validate buf len := by
  have hs : summedBytes (buf.take len.bytes) len = summedBytes buf len := by
    cases len <;> simp [summedBytes, FrameLen.bytes, List.take_take, List.drop_take]
  have hc : checkByte (buf.take len.bytes) len = checkByte buf len := by
    cases len <;> simp [checkByte, FrameLen.bytes, List.getD_eq_getElem?_getD]
  have hn : complement (buf.take len.bytes) len = complement buf len := by
    simp [complement, List.take_take]
  unfold validate checksum
  rw [hs, hc, hn]

/-- The bytes of a heater frame: the complement of the captured ones (42_checksum.md R176). -/
theorem frameBytes_complementBuffer (buf : Bytes12) (len : FrameLen) :
    frameBytes (complementBuffer buf len) len = (buf.toList.take len.bytes).map (fun b => ~~~b) := by
  have hl : len.bytes ≤ 12 := by cases len <;> decide
  apply List.ext_getElem
  · simp [frameBytes]
  · intro i h1 h2
    have hi : i < len.bytes := by
      simp [frameBytes] at h1; omega
    simp [frameBytes, complementBuffer, hi]

/-- The four ways END_FRAME can end a candidate (41_framer.md R143). -/
theorem endFrame_ends (trig : Trigger) (s : State) : EndsFrame trig s (endFrame trig s) := by
  rcases frameLenOf_cases s.frLen with ⟨h9, h12, h⟩ | ⟨len, hlen, h⟩
  · exact .inl ⟨h9, h12, by simp only [endFrame, h]; rfl⟩
  · refine .inr ⟨len, hlen, ?_⟩
    rw [validate_take]
    simp only [endFrame, h]
    cases hv : validate s.frBuf.toList len with
    | none => rfl
    | some v =>
      cases v with
      | controller => rfl
      | heater => simp only [finalize, takeOrigin, frameEvent, frameBytes_complementBuffer]; rfl

/-- What a frame end leaves: an Idle framer, at most one more event, and perhaps a new origin time. -/
theorem endsFrame_form {trig : Trigger} {s t : State} (h : EndsFrame trig s t) :
    ∃ (e : Event) (ck : Bool) (lc lh : Time),
      t = frReset { s with
        history := s.history ++ [⟨s.timeUs, e⟩], ctrlKnown := ck, lastCtrlMs := lc, lastHeaterMs := lh }
      ∧ (s.ctrlKnown = true → ck = true)
      ∧ (lc = s.lastCtrlMs ∨ lc = s.frTimeMs) ∧ (lh = s.lastHeaterMs ∨ lh = s.frTimeMs) := by
  rcases h with ⟨-, -, rfl⟩ | ⟨len, -, h⟩
  · exact ⟨_, s.ctrlKnown, s.lastCtrlMs, s.lastHeaterMs, rfl, id, .inl rfl, .inl rfl⟩
  · split at h <;> subst h
    · exact ⟨_, s.ctrlKnown, s.lastCtrlMs, s.lastHeaterMs, rfl, id, .inl rfl, .inl rfl⟩
    · exact ⟨_, true, s.frTimeMs, s.lastHeaterMs, rfl, fun _ => rfl, .inr rfl, .inl rfl⟩
    · exact ⟨_, s.ctrlKnown, s.lastCtrlMs, s.frTimeMs, rfl, id, .inl rfl, .inr rfl⟩

/-- The form of the state END_FRAME leaves (41_framer.md R143). -/
theorem endFrame_form (trig : Trigger) (s : State) :
    ∃ (e : Event) (ck : Bool) (lc lh : Time),
      endFrame trig s = frReset { s with
        history := s.history ++ [⟨s.timeUs, e⟩], ctrlKnown := ck, lastCtrlMs := lc, lastHeaterMs := lh }
      ∧ (s.ctrlKnown = true → ck = true)
      ∧ (lc = s.lastCtrlMs ∨ lc = s.frTimeMs) ∧ (lh = s.lastHeaterMs ∨ lh = s.frTimeMs) :=
  endsFrame_form (endFrame_ends trig s)

/-- The two cases of SYM_INVALID (41_framer.md R149). -/
theorem symInvalid_cases (s : State) :
    (s.frStarted = true ∧ 9 ≤ s.frLen.toNat ∧
      symInvalid s = frReset { s with history := s.history ++ [⟨s.timeUs, .diag .invalidPulse .invalid s.frLen⟩] })
    ∨ ((s.frStarted = false ∨ s.frLen.toNat < 9) ∧ symInvalid s = s) := by
  by_cases h : s.frStarted = true ∧ Config.minInvalidResetLen ≤ s.frLen.toNat
  · exact .inl ⟨h.1, h.2, by simp only [symInvalid, h.1, h.2, and_self, if_true]; rfl⟩
  · refine .inr ⟨?_, by simp only [symInvalid, h, if_false]⟩
    cases hs : s.frStarted
    · exact .inl rfl
    · exact .inr (Nat.lt_of_not_le fun hle => h ⟨hs, hle⟩)

/-- The symbol of RX_POP's case is the symbol executed as an operation (41_framer.md R144). -/
theorem exec_symbolInstr (sym : Symbol) (s : State) : exec (symbolInstr sym) s = .next (runSymbol sym s) := by
  cases sym <;> rfl

/-! ## Transmit -/

/-- START_OK as arithmetic on numbers (43_transmit.md R197, R198). -/
theorem startOk_iff (s : State) : startOk s = true ↔
    s.passive = false ∧ 0 < s.txqCount ∧ s.frStarted = false
      ∧ (s.txEver = false ∨ s.lastTxEndUs.toNat + 10000000 ≤ s.timeUs.toNat)
      ∧ (s.ctrlKnown = false ∨ s.lastCtrlMs.toNat + 90000 ≤ (nowMs s).toNat
          ∨ (nowMs s).toNat + 4142 < s.lastCtrlMs.toNat + 60000) := by
  have ht : throttleOk s = true ↔ s.txEver = false ∨ s.lastTxEndUs.toNat + 10000000 ≤ s.timeUs.toNat := by
    have he : ((Config.throttleMs * 1000 : Nat) : Int) = 10000000 := rfl
    rw [throttleOk, Bool.or_eq_true, Bool.not_eq_true', decide_eq_true_eq, elapsed, he]
    exact or_congr_right (by omega)
  have hc : collisionOk s = true ↔ s.ctrlKnown = false ∨ s.lastCtrlMs.toNat + 90000 ≤ (nowMs s).toNat
      ∨ (nowMs s).toNat + 4142 < s.lastCtrlMs.toNat + 60000 := by
    have he : ((Config.ctrlTimeoutMs : Nat) : Int) = 90000 := rfl
    rw [collisionOk, Bool.or_eq_true, Bool.or_eq_true, Bool.not_eq_true', decide_eq_true_eq, decide_eq_true_eq,
      elapsed, he, or_assoc]
    exact or_congr_right (or_congr_left (by omega))
  rw [startOk, Bool.and_eq_true, Bool.and_eq_true, Bool.and_eq_true, Bool.and_eq_true, ht, hc]
  simp only [Bool.not_eq_true', decide_eq_true_eq, and_assoc]

/-- The two cases of TX_TICK (43_transmit.md R196). -/
theorem schedulerTick_cases (s : State) :
    (startOk s = true ∧ schedulerTick s = burstStart { s with txNotify := false })
    ∨ (startOk s = false ∧ schedulerTick s = { s with txNotify := false }) := by
  have hn : startOk { s with txNotify := false } = startOk s := rfl
  cases h : startOk s
  · exact .inr ⟨rfl, by simp only [schedulerTick, hn, h]; rfl⟩
  · exact .inl ⟨rfl, by simp only [schedulerTick, hn, h]; rfl⟩

/-- The two cases of TX_ENQUEUE (43_transmit.md R192, R193). -/
theorem enqueuePacket_cases (len : FrameLen) (pkt : Bytes12) (s : State) :
    (s.passive = true ∧ enqueuePacket len pkt s = emit (.diag .passiveBlocked .none (lenField len)) s)
    ∨ (s.passive = false ∧ enqueuePacket len pkt s = txqPush (packetOperand len pkt) s) := by
  cases h : s.passive
  · exact .inr ⟨rfl, by simp only [enqueuePacket, h]; rfl⟩
  · exact .inl ⟨rfl, by simp only [enqueuePacket, h]; rfl⟩

/-- When TX_SEGMENT is enabled (43_transmit.md R204). -/
theorem txSegmentEnabled_iff (s : State) : txSegmentEnabled s = true ↔
    s.mode = .transmit ∧ s.txSeg.toNat < s.txNseg.toNat ∧ s.timeUs = s.txDeadline := by
  simp only [txSegmentEnabled, Bool.and_eq_true, decide_eq_true_eq, and_assoc]

/-- When TX_END is enabled (43_transmit.md R207). -/
theorem txEndEnabled_iff (s : State) : txEndEnabled s = true ↔
    s.mode = .transmit ∧ s.txSeg = s.txNseg ∧ s.timeUs = s.txDeadline := by
  simp only [txEndEnabled, Bool.and_eq_true, decide_eq_true_eq, and_assoc]

/-! ## TIME -/

/-- When TIME may advance, as arithmetic (10_state.md R22, 43_transmit.md R205). -/
theorem mayAdvance_iff (n : Nat) (s : State) : mayAdvance n s = true ↔
    0 < n ∧ s.timeUs.toNat + n < 2 ^ 64 ∧ (s.mode = .transmit → s.timeUs.toNat + n ≤ s.txDeadline.toNat) := by
  simp only [mayAdvance, Bool.and_eq_true, Bool.or_eq_true, decide_eq_true_eq, and_assoc]
  cases s.mode <;> simp

/-- TIME either advances T by n or is held (10_state.md R22, 43_transmit.md R205). -/
theorem advanceTime_cases (n : Nat) (s : State) :
    (mayAdvance n s = true ∧ advanceTime n s = { s with timeUs := BitVec.ofNat 64 (s.timeUs.toNat + n) }
      ∧ (advanceTime n s).timeUs.toNat = s.timeUs.toNat + n)
    ∨ (mayAdvance n s = false ∧ advanceTime n s = s) := by
  cases h : mayAdvance n s
  · exact .inr ⟨rfl, by simp [advanceTime, h]⟩
  · obtain ⟨-, h2, -⟩ := (mayAdvance_iff n s).1 h
    refine .inl ⟨rfl, by simp [advanceTime, h], ?_⟩
    simp only [advanceTime, h, if_true, BitVec.toNat_ofNat]
    exact Nat.mod_eq_of_lt h2

end Sys2Proof.Machine
end

