-- ==== Sys2Proof/Laws/Exec.lean ====
section
/-! SUPPORT. What one operation and one step can do, once: every meaning answers a next state, and the forms that state can
have. -/

namespace Sys2Proof.Machine

open Sys2Proof Sys2Proof.Safety

/-! ## Operations -/

/-- The state an operation's meaning answers: every meaning of this model completes (60_exceptions.md R250). -/
def after : Instr → State → State
  | .edge l, s => if s.mode = .transmit then s else captureEdge l s
  | .rxPop, s => if rxPopEnabled s then popRecord s else s
  | .rxIdleCheck, s => if rxIdleCheckEnabled s then idleCheck s else s
  | .txEnqueue len pkt, s => enqueuePacket len pkt s
  | .txTick, s => if txTickEnabled s then schedulerTick s else s
  | .txSegment, s => if txSegmentEnabled s then driveSegment s else s
  | .txEnd, s => if txEndEnabled s then endBurst s else s
  | .regRead ridx, s => emit (.regValue (registerValue ridx s)) s
  | .regWrite ridx d, s => writeRegister ridx d s
  | .reset, s => if resetEnabled s then resetBlock s else s
  | .illegal _, s => emit (.diag .illegalCmd .none 0) s
  | .invalid, s => symInvalid s
  | .bit0, s => symBit false s
  | .bit1, s => symBit true s
  | .preamble, s => symPreamble s
  | .idle, s => symIdle .idle s

/-- Every meaning answers a next state. -/
theorem exec_eq (i : Instr) (s : State) : exec i s = .next (after i s) := by cases i <;> rfl

/-- The next state a meaning answers is the one `after` gives. -/
theorem exec_next {i : Instr} {s t : State} (h : exec i s = .next t) : t = after i s := by
  rw [exec_eq] at h; exact (Host.Outcome.next.inj h).symm

/-- EDGE in Receive mode times and pairs the half-period (40_capture.md R110). -/
theorem exec_edge {s : State} (h : s.mode = .receive) (l : Level) : exec (.edge l) s = .next (captureEdge l s) := by
  rw [exec_eq, after, if_neg (by rw [h]; decide)]

/-- TX_TICK in Receive mode runs the scheduler (43_transmit.md R196). -/
theorem exec_txTick {s : State} (h : s.mode = .receive) : exec .txTick s = .next (schedulerTick s) := by
  rw [exec_eq, after, if_pos (by rw [txTickEnabled, h]; rfl)]

/-- RX_POP with a record in the ring takes it (41_framer.md R144). -/
theorem exec_rxPop {s : State} (h : 0 < s.pqCount) : exec .rxPop s = .next (popRecord s) := by
  rw [exec_eq, after, if_pos (by simpa only [rxPopEnabled, decide_eq_true_eq] using h)]

/-- The two bit symbols are one operation on a bit (41_framer.md R146, R147). -/
theorem exec_bitInstr (b : Bool) (s : State) : exec (bitInstr b) s = .next (symBit b s) := by cases b <;> rfl

/-- What running one symbol can do (41_framer.md R145–R149): a property of all these states holds of the result. -/
theorem runSymbol_induction {P : State → Prop} (sym : Symbol) (s : State) (unchanged : P s)
    (append : ∀ b, s.frStarted = true → P (appendBit b s))
    (frameEnd : s.frStarted = true → P (endFrame .idle s))
    (discard : s.frStarted = true → 9 ≤ s.frLen.toNat →
      P (frReset { s with history := s.history ++ [⟨s.timeUs, .diag .invalidPulse .invalid s.frLen⟩] }))
    (start : s.frStarted = false → P (frStart s))
    (restart : s.frStarted = true → P (frStart (endFrame .preamble s))) : P (runSymbol sym s) := by
  cases sym with
  | invalid =>
    rcases symInvalid_cases s with ⟨h1, h2, h⟩ | ⟨-, h⟩
    · show P (symInvalid s)
      rw [h]; exact discard h1 h2
    · show P (symInvalid s)
      rw [h]; exact unchanged
  | bit0 =>
    simp only [runSymbol, symBit]; split
    · exact append _ ‹_›
    · exact unchanged
  | bit1 =>
    simp only [runSymbol, symBit]; split
    · exact append _ ‹_›
    · exact unchanged
  | preamble =>
    simp only [runSymbol, symPreamble]; split
    · exact restart ‹_›
    · rename_i h; exact start (by simpa using h)
  | idle =>
    simp only [runSymbol, symIdle]; split
    · exact frameEnd ‹_›
    · exact unchanged

/-- A symbol writes the framer, the origin times and the output, nothing else (60_exceptions.md R264). -/
theorem runSymbol_frame (sym : Symbol) (s : State) : runSymbol sym s = { s with
    frBuf := (runSymbol sym s).frBuf, frLen := (runSymbol sym s).frLen, frCur := (runSymbol sym s).frCur
    frBidx := (runSymbol sym s).frBidx, frSrc := (runSymbol sym s).frSrc
    frStarted := (runSymbol sym s).frStarted, frFinalized := (runSymbol sym s).frFinalized
    frTimeMs := (runSymbol sym s).frTimeMs, ctrlKnown := (runSymbol sym s).ctrlKnown
    lastCtrlMs := (runSymbol sym s).lastCtrlMs, lastHeaterMs := (runSymbol sym s).lastHeaterMs
    history := (runSymbol sym s).history } := by
  apply runSymbol_induction (P := fun t => t = { s with
      frBuf := t.frBuf, frLen := t.frLen, frCur := t.frCur, frBidx := t.frBidx, frSrc := t.frSrc
      frStarted := t.frStarted, frFinalized := t.frFinalized, frTimeMs := t.frTimeMs
      ctrlKnown := t.ctrlKnown, lastCtrlMs := t.lastCtrlMs, lastHeaterMs := t.lastHeaterMs
      history := t.history })
  · rfl
  · intro b _
    rcases appendBit_cases b s with ⟨-, he⟩ | ⟨-, -, he⟩ | ⟨-, -, he⟩ <;> rw [he] <;> rfl
  · intro _; obtain ⟨e, ck, lc, lh, he, -⟩ := endFrame_form .idle s; rw [he]; rfl
  · intro _ _; rfl
  · intro _; rfl
  · intro _; obtain ⟨e, ck, lc, lh, he, -⟩ := endFrame_form .preamble s; rw [he]; rfl

/-- TX_TICK writes the mode, the queue's head and count, `tx_notify` and the burst state, nothing else (43_transmit.md R196,
R199). -/
theorem schedulerTick_frame (s : State) : schedulerTick s = { s with
    mode := (schedulerTick s).mode, txqHead := (schedulerTick s).txqHead, txqCount := (schedulerTick s).txqCount
    txNotify := false, txPkt := (schedulerTick s).txPkt, txNseg := (schedulerTick s).txNseg
    txSeg := (schedulerTick s).txSeg, txDeadline := (schedulerTick s).txDeadline } := by
  rcases schedulerTick_cases s with ⟨-, he⟩ | ⟨-, he⟩ <;> rw [he] <;> rfl

/-- What one operation can do: it is held, or its body runs where it is enabled. A property of all these states holds of
the state it answers. -/
theorem after_induction {P : State → Prop} (i : Instr) (s : State) (held : P s)
    (edge : ∀ l, i = .edge l → s.mode = .receive → P (captureEdge l s))
    (pop : i = .rxPop → 0 < s.pqCount → ∀ sym, P (runSymbol sym (pqDrop s)))
    (idleEnd : i = .rxIdleCheck → s.frStarted = true → P (endFrame .synthIdle s))
    (enqueue : ∀ len pkt, i = .txEnqueue len pkt → P (enqueuePacket len pkt s))
    (tick : i = .txTick → s.mode = .receive → P (schedulerTick s))
    (segment : i = .txSegment → s.mode = .transmit → s.txSeg.toNat < s.txNseg.toNat → s.timeUs = s.txDeadline →
      P (driveSegment s))
    (burstEnd : i = .txEnd → s.mode = .transmit → s.txSeg = s.txNseg → s.timeUs = s.txDeadline → P (endBurst s))
    (read : ∀ r, i = .regRead r → P (emit (.regValue (registerValue r s)) s))
    (write : ∀ (r : BitVec 4) (d : Word), i = .regWrite r d → P { s with passive := d.getLsbD 0 })
    (reset : i = .reset → s.mode = .receive → P (resetBlock s))
    (illegal : ∀ w, i = .illegal w → P (emit (.diag .illegalCmd .none 0) s))
    (symbol : ∀ sym, i = symbolInstr sym → P (runSymbol sym s)) : P (after i s) := by
  cases i with
  | edge l =>
    simp only [after]; split
    · exact held
    · exact edge l rfl (by cases h : s.mode <;> simp_all)
  | rxPop =>
    simp only [after, rxPopEnabled, decide_eq_true_eq]; split
    · exact pop rfl ‹_› _
    · exact held
  | rxIdleCheck =>
    simp only [after, idleCheck]; split
    · split
      · rename_i h
        simp only [symIdle, h.1, if_true]; exact idleEnd rfl h.1
      · exact held
    · exact held
  | txEnqueue len pkt => exact enqueue len pkt rfl
  | txTick =>
    simp only [after, txTickEnabled, decide_eq_true_eq]; split
    · exact tick rfl ‹_›
    · exact held
  | txSegment =>
    simp only [after, txSegmentEnabled, Bool.and_eq_true, decide_eq_true_eq]; split
    · rename_i h; exact segment rfl h.1.1 h.1.2 h.2
    · exact held
  | txEnd =>
    simp only [after, txEndEnabled, Bool.and_eq_true, decide_eq_true_eq]; split
    · rename_i h; exact burstEnd rfl h.1.1 h.1.2 h.2
    · exact held
  | regRead r => exact read r rfl
  | regWrite r d =>
    simp only [after, writeRegister]; split
    · exact write r d rfl
    · exact held
  | reset =>
    simp only [after, resetEnabled, decide_eq_true_eq]; split
    · exact reset rfl ‹_›
    · exact held
  | illegal w => exact illegal w rfl
  | invalid => exact symbol .invalid rfl
  | bit0 => exact symbol .bit0 rfl
  | bit1 => exact symbol .bit1 rfl
  | preamble => exact symbol .preamble rfl
  | idle => exact symbol .idle rfl

/-! ## Steps -/

/-- What one step can do: with the agenda moved on, nothing more, or one operation, or TIME. -/
theorem step_cases {s t : State} (h : step s = .next t) :
    ∃ (todo : List AgendaItem) (u : State), u = { s with agenda := todo }
      ∧ (t = u ∨ (∃ i, exec i u = .next t) ∨ ∃ n, t = advanceTime n u) := by
  have self : s = { s with agenda := s.agenda } := rfl
  simp only [step, takeStep] at h
  split at h
  · exact ⟨s.agenda, s, self, .inl (Host.Outcome.next.inj h).symm⟩
  · rename_i op rest _
    refine ⟨rest, _, rfl, ?_⟩
    simp only [runRaw] at h
    split at h
    · rename_i i _
      exact .inr (.inl ⟨i, h⟩)
    · cases h
  · exact ⟨_, _, rfl, .inr (.inr ⟨_, (Host.Outcome.next.inj h).symm⟩)⟩
  · exact ⟨_, _, rfl, .inr (.inr ⟨_, (Host.Outcome.next.inj h).symm⟩)⟩
  · rename_i rest _
    simp only [runDrain] at h
    split at h
    · exact ⟨s.agenda, s, self, .inr (.inl ⟨.rxPop, h⟩)⟩
    · exact ⟨rest, _, rfl, .inl (Host.Outcome.next.inj h).symm⟩
  · rename_i rest _
    simp only [runBurst] at h
    split at h
    · exact ⟨rest, _, rfl, .inl (Host.Outcome.next.inj h).symm⟩
    · split at h
      · exact ⟨s.agenda, s, self, .inr (.inr ⟨_, (Host.Outcome.next.inj h).symm⟩)⟩
      · split at h
        · exact ⟨s.agenda, s, self, .inr (.inl ⟨.txSegment, h⟩)⟩
        · exact ⟨rest, _, rfl, .inr (.inl ⟨.txEnd, h⟩)⟩

/-- The operation `offered` names is the one the next step executes, with the agenda moved on. -/
theorem step_offered {s : State} {i : Instr} (h : offered s = some i) :
    ∃ todo : List AgendaItem, step s = exec i { s with agenda := todo } := by
  rcases ha : s.agenda with _ | ⟨op | us | at_ | _ | _, rest⟩ <;> simp only [offered, ha] at h <;>
    simp only [step, takeStep, ha]
  · cases h
  · refine ⟨rest, ?_⟩
    split at h <;> cases h
    rename_i hd
    simp only [runRaw, hd]
  · cases h
  · cases h
  · split at h <;> cases h
    rename_i hc
    exact ⟨AgendaItem.rxDrain :: rest, by simp only [runDrain, if_pos hc, ← ha]⟩
  · split at h
    · cases h
    · rename_i hm
      obtain ⟨hm, ht⟩ := not_or.1 hm
      split at h <;> cases h <;> rename_i hs
      · exact ⟨AgendaItem.txRun :: rest, by simp only [runBurst, if_neg hm, if_neg ht, if_pos hs, ← ha]⟩
      · exact ⟨rest, by simp only [runBurst, if_neg hm, if_neg ht, if_neg hs]⟩

/-- TIME writes T alone. -/
theorem advanceTime_frame (n : Nat) (s : State) : advanceTime n s = { s with timeUs := (advanceTime n s).timeUs } := by
  rw [advanceTime]; split <;> rfl

/-- A step that is no operation's leaves every element but the agenda and T as it was. -/
theorem step_no_offer {s t : State} (h : offered s = none) (hs : step s = .next t) :
    t = { s with agenda := t.agenda, timeUs := t.timeUs } := by
  rcases ha : s.agenda with _ | ⟨op | us | at_ | _ | _, rest⟩ <;> simp only [offered, ha] at h <;>
    simp only [step, takeStep, ha] at hs
  · cases hs; rfl
  · split at h
    · cases h
    · rename_i hd
      simp only [runRaw, hd] at hs; cases hs
  · cases hs; rw [advanceTime_frame]
  · cases hs; rw [advanceTime_frame]
  · split at h
    · cases h
    · rename_i hc
      simp only [runDrain, if_neg hc] at hs; cases hs; rfl
  · split at h
    · rename_i hm
      simp only [runBurst] at hs
      split at hs
      · cases hs; rfl
      · rename_i hr
        simp only [if_pos (hm.resolve_left hr)] at hs
        cases hs; rw [advanceTime_frame]
    · split at h <;> cases h

end Sys2Proof.Machine
end

