-- ==== Sys2Proof/Laws/PerInstr.lean ====
section
/-! SUPPORT. The families of statements that are proved once per constructor of Instr. MatchMask: the encoder agrees with
the `match` and `mask` columns of opcode_table.json, a table written apart from the decoder and the encoder. -/

namespace Sys2Proof.Laws

open Sys2Proof

/-- What opcode_table.json says of the bits of a row. -/
inductive TableRow where
  /-- A CMD32 row: the bits of `mask` have the values of `value`. -/
  | word (mask value : Word)
  /-- The row ILLEGAL: "any word matching no row above". -/
  | noOtherRow
  /-- A SYM3 row: the symbol code. -/
  | symbol (code : BitVec 3)

/-- The row of each operation in opcode_table.json. -/
def tableRow : Instr → TableRow
  | .edge _ => .word 0xFFFFFEFF 0x00000001
  | .rxPop => .word 0xFFFFFFFF 0x00000002
  | .rxIdleCheck => .word 0xFFFFFFFF 0x00000003
  | .txEnqueue _ _ => .word 0xFFFFFEFF 0x00000004
  | .txTick => .word 0xFFFFFFFF 0x00000005
  | .txSegment => .word 0xFFFFFFFF 0x00000006
  | .txEnd => .word 0xFFFFFFFF 0x00000007
  | .regRead _ => .word 0xFFFFE1FF 0x00000008
  | .regWrite _ _ => .word 0xFFFFE1FF 0x00000009
  | .reset => .word 0xFFFFFFFF 0x0000000A
  | .illegal _ => .noOtherRow
  | .invalid => .symbol 0
  | .bit0 => .symbol 1
  | .bit1 => .symbol 2
  | .preamble => .symbol 3
  | .idle => .symbol 4

/-- The `mask` and `match` of the ten command rows. -/
def commandRows : List (Word × Word) :=
  [(0xFFFFFEFF, 0x01), (0xFFFFFFFF, 0x02), (0xFFFFFFFF, 0x03), (0xFFFFFEFF, 0x04), (0xFFFFFFFF, 0x05),
    (0xFFFFFFFF, 0x06), (0xFFFFFFFF, 0x07), (0xFFFFE1FF, 0x08), (0xFFFFE1FF, 0x09), (0xFFFFFFFF, 0x0A)]

namespace MatchMask

/-- A well-formed operation is encoded in the bits its table row asks for. -/
def Statement (i : Instr) : Prop :=
  wellFormed i = true →
    match tableRow i, encode i with
    | .word mask value, .command w _ _ => w &&& mask = value
    | .noOtherRow, .command w _ _ => ∀ row ∈ commandRows, w &&& row.1 ≠ row.2
    | .symbol code, .symbol c => c = code
    | _, _ => False

theorem edge (level : Level) : Statement (.edge level) := fun _ => by cases level <;> rfl
theorem rxPop : Statement .rxPop := fun _ => rfl
theorem rxIdleCheck : Statement .rxIdleCheck := fun _ => rfl
theorem txEnqueue (len : FrameLen) (pkt : Bytes12) : Statement (.txEnqueue len pkt) := fun _ => by
  cases len <;> rfl
theorem txTick : Statement .txTick := fun _ => rfl
theorem txSegment : Statement .txSegment := fun _ => rfl
theorem txEnd : Statement .txEnd := fun _ => rfl
theorem regRead (ridx : BitVec 4) : Statement (.regRead ridx) := fun _ => by
  have h : ∀ r : BitVec 4, commandWord 0x08 false r &&& 0xFFFFE1FF = 0x00000008 := by decide
  exact h ridx
theorem regWrite (ridx : BitVec 4) (d : Word) : Statement (.regWrite ridx d) := fun _ => by
  have h : ∀ r : BitVec 4, commandWord 0x09 false r &&& 0xFFFFE1FF = 0x00000009 := by decide
  exact h ridx
theorem reset : Statement .reset := fun _ => rfl
theorem invalid : Statement .invalid := fun _ => rfl
theorem bit0 : Statement .bit0 := fun _ => rfl
theorem bit1 : Statement .bit1 := fun _ => rfl
theorem preamble : Statement .preamble := fun _ => rfl
theorem idle : Statement .idle := fun _ => rfl

/-- A field of a word that agrees with a row is the row's field, where the row fixes it whole. -/
theorem field_of_row {w mask value : Word} (h : w &&& mask = value) (start len : Nat)
    (fixed : mask.extractLsb' start len = BitVec.allOnes len) :
    w.extractLsb' start len = value.extractLsb' start len := by
  rw [← h, BitVec.extractLsb'_and, fixed, BitVec.and_allOnes]

/-- An illegal word agrees with no row. -/
theorem illegal (word : Word) : Statement (.illegal word) := by
  intro hw row hrow h
  have hw : illegalWord word = true := hw
  have hopc := field_of_row h 0 8
  have ha := field_of_row h 8 1
  have hridx := field_of_row h 9 4
  have hrsv := field_of_row h 13 19
  have hbit : aField word = (word.extractLsb' 8 1).getLsbD 0 := by simp [aField]
  simp only [commandRows, List.mem_cons, List.not_mem_nil, or_false] at hrow
  rcases hrow with rfl | rfl | rfl | rfl | rfl | rfl | rfl | rfl | rfl | rfl <;>
    simp_all [illegalWord, opcField, ridxField, rsvField]

end MatchMask

end Sys2Proof.Laws
end

