-- ==== Sys2Proof/Tests/Slice0.lean ====
section
/-! SUPPORT. The model's own tests: decoding of words written out from the spec, one step of each operation against
95_test_vectors.md, and for each obligation with hypotheses a state and operands that meet them. -/

namespace Sys2Proof.Tests

open Sys2Proof Sys2Proof.Machine Sys2Proof.Safety

/-! ## Helpers -/

/-- Power-on, at a later time. -/
def idleAt (t : Nat) : State := { State.reset with timeUs := BitVec.ofNat 64 t }

/-- A frame candidate of `n` bytes, started at 1014 ms (vectors F-04 to F-19). -/
def receiving (n : Nat) (bytes : Bytes12) : State :=
  { idleAt 1359000 with
    frStarted := true, frLen := BitVec.ofNat 4 n, frBuf := bytes, frTimeMs := 1014, lastEdge := 1309000 }

/-- The state an operation answers. -/
def ran (i : Instr) (s : State) : State :=
  match exec i s with
  | .next t => t
  | .fault _ => s
  | .refused _ => s

/-- The events an operation emits. -/
def emitted (i : Instr) (s : State) : List Event := ((ran i s).history.drop s.history.length).map Stamped.event

/-- Packet p12 of 95_test_vectors.md section 2.5, which is also candidate V-01. -/
def p12 : Bytes12 := #v[0x81, 0xB1, 0x17, 0x06, 0x77, 0x78, 0x3D, 0x3D, 0x3D, 0x3D, 0x00, 0x32]

/-- Packet p9 of the same section, which is also candidate V-05. -/
def p9 : Bytes12 := #v[0xD2, 0x01, 0x02, 0x03, 0x04, 0x05, 0x06, 0x07, 0x1C, 0, 0, 0]

/-- Candidate V-03: the heater frame of scenario 1 as it is captured. -/
def v03 : Bytes12 := #v[0x2D, 0x4E, 0xEE, 0x99, 0x8A, 0xAD, 0xA0, 0xFF, 0x9B, 0xFF, 0xFF, 0x7B]

/-- One packet queued at 200 s, not passive (vector T-28). -/
def queued : State :=
  { idleAt 200000000 with passive := false, txqBuf := [(0, ⟨.long, p12⟩)], txqCount := 1, txNotify := true }

/-- A burst of p12 whose next segment is `seg`, due now. -/
def sending (seg : Nat) : State :=
  { idleAt 200000000 with
    mode := .transmit, txPkt := ⟨.long, p12⟩, txNseg := 1568, txSeg := BitVec.ofNat 16 seg, txDeadline := 200000000 }

/-- One preamble record in the ring, at its last index. -/
def oneRecord : State :=
  { idleAt 1014000 with pqBuf := [(2047, ⟨.low, 9000, .high, 5000⟩)], pqHead := 2047, pqCount := 1 }

/-! ## WellFormed: each check refuses an ill-formed term -/

/-- 0x00000005 is TX_TICK, no illegal word. -/
theorem test_wellFormed_refuses_a_legal_word : wellFormed (.illegal 0x00000005) = false := by decide
theorem test_wellFormed_accepts_an_illegal_word : wellFormed (.illegal 0x0000000B) = true := by decide

/-! ## Decode: words written out bit by bit from 30_encoding.md R86, R89 and R90 -/

theorem test_decode_edge : decodeTableWord 32 0b00000000000000000000000100000001 = some (.edge .high)
    ∧ decodeTableWord 32 0b00000000000000000000000000000001 = some (.edge .low) := by decide
theorem test_decode_rxPop : decodeTableWord 32 0b00000000000000000000000000000010 = some .rxPop := by decide
theorem test_decode_rxIdleCheck : decodeTableWord 32 0b00000000000000000000000000000011 = some .rxIdleCheck := by decide
theorem test_decode_txEnqueue :
    decode (.command 0b00000000000000000000000100000100 0 p12) = .ok (.txEnqueue .long p12)
    ∧ decode (.command 0b00000000000000000000000000000100 0 p9) = .ok (.txEnqueue .short p9) := ⟨rfl, rfl⟩
theorem test_decode_txTick : decodeTableWord 32 0b00000000000000000000000000000101 = some .txTick := by decide
theorem test_decode_txSegment : decodeTableWord 32 0b00000000000000000000000000000110 = some .txSegment := by decide
theorem test_decode_txEnd : decodeTableWord 32 0b00000000000000000000000000000111 = some .txEnd := by decide
theorem test_decode_regRead : decodeTableWord 32 0b00000000000000000000001000001000 = some (.regRead 1)
    ∧ decodeTableWord 32 0b00000000000000000001111000001000 = some (.regRead 15) := by decide
theorem test_decode_regWrite :
    decode (.command 0b00000000000000000000001000001001 0xFFFFFFFF zeroBytes) = .ok (.regWrite 1 0xFFFFFFFF) := rfl
theorem test_decode_reset : decodeTableWord 32 0b00000000000000000000000000001010 = some .reset := by decide
/-- Vectors H-09 to H-14, and TX_ENQUEUE with RIDX = 1 (R93). -/
theorem test_decode_illegal : [0x00000200, 0x0000000B, 0x00000102, 0x00000201, 0x00002005, 0x00000108, 0x00000204].all
    (fun w => decodeTableWord 32 w == some (.illegal (BitVec.ofNat 32 w))) = true := by decide
theorem test_decode_symbols : [0, 1, 2, 3, 4, 5, 6, 7].map (decodeTableWord 8) =
    [some .invalid, some .bit0, some .bit1, some .preamble, some .idle, none, none, none] := by decide

/-! ## Capture -/

/-- Vector E-02. -/
theorem test_edge_rising : let t := ran (.edge .high) { idleAt 10000 with lastEdge := 1000 }
    t.pendValid = true ∧ t.pendDur = 9000 ∧ t.lastEdge = 10000 := by decide
/-- Vector E-07: the duration wraps modulo 2^32. -/
theorem test_edge_wraps :
    pqContents (ran (.edge .low) { idleAt 0x300000100 with lastEdge := 0xFFFFFF00, pendValid := true, pendDur := 1000 })
      = [⟨.low, 1000, .high, 512⟩] := by decide

/-! ## Classification: the bounds of 95_test_vectors.md section 2.1 -/

/-- K-02, K-03, K-04, K-05, K-06, K-07. -/
theorem test_classify_bit0 : [(400, 400), (1600, 1600), (399, 1000), (1601, 1000), (1000, 399), (1000, 1601)].map
    (fun d => classify ⟨.low, BitVec.ofNat 32 d.1, .high, BitVec.ofNat 32 d.2⟩) =
    [.bit0, .bit0, .invalid, .invalid, .invalid, .invalid] := by decide
/-- K-09, K-10, K-12, K-13. -/
theorem test_classify_bit1 : [2399, 2400, 3600, 3601].map (fun d => classify ⟨.low, 1000, .high, BitVec.ofNat 32 d⟩) =
    [.invalid, .bit1, .bit1, .invalid] := by decide
/-- K-14, K-15, K-17, K-18. -/
theorem test_classify_preamble : [4399, 4400, 5600, 5601].map (fun d => classify ⟨.low, 9000, .high, BitVec.ofNat 32 d⟩) =
    [.invalid, .preamble, .preamble, .invalid] := by decide
/-- K-22, K-23, K-26, K-27, K-28. -/
theorem test_classify_idle : [classify ⟨.low, 1000, .high, 49999⟩, classify ⟨.low, 1000, .high, 50000⟩,
    classify ⟨.low, 1000, .high, 0xFFFFFFFF⟩, classify ⟨.high, 1000, .high, 1000⟩, classify ⟨.low, 1000, .low, 1000⟩] =
    [.invalid, .idle, .idle, .invalid, .invalid] := by decide

/-! ## The framer -/

/-- Vector F-01, through the ring. -/
theorem test_rxPop_preamble : let t := ran .rxPop oneRecord
    t.frStarted = true ∧ t.frTimeMs = 1014 ∧ t.pqCount = 0 ∧ t.pqHead = 0 := by decide
/-- Vector F-19 and F-18. -/
theorem test_rxIdleCheck : emitted .rxIdleCheck (receiving 9 p9) = [.frame .short (p9.toList.take 9) .controller 1014]
    ∧ emitted .rxIdleCheck { receiving 9 p9 with timeUs := 1358999 } = [] := by decide
/-- Vector F-04. -/
theorem test_bit1 : let t := ran .bit1 { receiving 0 zeroBytes with frBidx := 2, frCur := 0x01 }
    t.frCur = 0x05 ∧ t.frBidx = 3 := by decide
/-- Vector F-07. -/
theorem test_bit1_overlong : emitted .bit1 { receiving 12 p12 with frBidx := 7 } = [.diag .overlong .bit 12] := by decide
/-- Vector F-05. -/
theorem test_bit0 : let t := ran .bit0 { receiving 3 zeroBytes with frBidx := 7, frCur := 0x7F }
    t.frBuf[3] = 0x7F ∧ t.frLen = 4 ∧ t.frCur = 0 ∧ t.frBidx = 0 := by decide
/-- Vector F-14. -/
theorem test_preamble : emitted .preamble (receiving 12 p12) = [.frame .long p12.toList .controller 1014]
    ∧ (ran .preamble (receiving 12 p12)).frTimeMs = 1359 := by decide
/-- Vector F-15. -/
theorem test_preamble_twice : emitted .preamble (receiving 0 zeroBytes) = [.diag .badLength .preamble 0] := by decide
/-- Vector V-03. -/
theorem test_idle_heater : emitted .idle (receiving 12 v03) =
    [.frame .long [0xD2, 0xB1, 0x11, 0x66, 0x75, 0x52, 0x5F, 0x00, 0x64, 0x00, 0x00, 0x84] .heater 1014] := by decide
/-- Vector V-04. -/
theorem test_idle_corrupt : emitted .idle (receiving 12 (p12.setIfInBounds 5 0x79)) = [.diag .badChecksum .idle 12] := by
  decide
/-- Vectors F-10 and F-09. -/
theorem test_invalid : emitted .invalid (receiving 9 p9) = [.diag .invalidPulse .invalid 9]
    ∧ emitted .invalid (receiving 8 p9) = [] := by decide

/-! ## Transmit -/

/-- Vector T-27. -/
theorem test_txEnqueue_overflow : let s := { queued with txqCount := 8 }
    emitted (.txEnqueue .short p9) s = [.diag .txqOverflow .none 0]
    ∧ (ran (.txEnqueue .short p9) s).txqCount = 8 ∧ (ran (.txEnqueue .short p9) s).txqHead = 1 := by decide
/-- Vectors T-25 and T-26. -/
theorem test_txEnqueue_passive : emitted (.txEnqueue .long p12) (idleAt 5) = [.diag .passiveBlocked .none 12]
    ∧ emitted (.txEnqueue .short p9) (idleAt 5) = [.diag .passiveBlocked .none 9] := by decide
/-- Vector T-28. -/
theorem test_txTick : let t := ran .txTick queued
    t.mode = .transmit ∧ t.txNseg = 1568 ∧ t.txSeg = 0 ∧ t.txDeadline = 200000000 ∧ t.txNotify = false
    ∧ t.txPkt = ⟨.long, p12⟩ := by decide
/-- Vectors T-14 to T-17, T-20 and T-21. -/
theorem test_startOk : [(56871000, false), (56872000, false), (91013000, false), (91014000, false), (109999999, true),
    (110000000, true)].map (fun c => startOk { queued with
      timeUs := BitVec.ofNat 64 c.1, ctrlKnown := true, lastCtrlMs := 1014, txEver := c.2, lastTxEndUs := 100000000 }) =
    [true, false, false, true, false, true] := by decide
/-- Vector T-29. -/
theorem test_txSegment : let t := ran .txSegment (sending 0)
    t.txDeadline = 200009000 ∧ t.txSeg = 1 ∧ t.busDrive = .low ∧ emitted .txSegment (sending 0) = [.seg .low 9000] := by decide
/-- Vectors T-03, T-04, T-07, T-08, T-09 and T-10. -/
theorem test_segAt : [3, 5, 193, 195, 196, 1567].map (segAt ⟨.long, p12⟩) =
    [(.high, 3000), (.high, 1000), (.high, 1000), (.high, 100000), (.low, 9000), (.high, 250000)] := by decide
/-- Vector T-31. -/
theorem test_txEnd : let t := ran .txEnd (sending 1568)
    t.mode = .receive ∧ t.busDrive = .released ∧ t.lastTxEndUs = 200000000 ∧ t.lastEdge = 200000000
    ∧ emitted .txEnd (sending 1568) = [.release] := by decide

/-! ## Host access -/

/-- Vectors H-07 and H-08. -/
theorem test_regRead_status : emitted (.regRead 1) (idleAt 29999999) = [.regValue 0x00000000]
    ∧ emitted (.regRead 1) (idleAt 30000000) = [.regValue 0x00000020] := by decide
/-- Vectors H-02 and H-06. -/
theorem test_regRead_others : emitted (.regRead 0) (idleAt 0) = [.regValue 0x00000001]
    ∧ emitted (.regRead 9) (idleAt 0) = [.regValue 0x00000000] := by decide
/-- Vectors H-03 and H-04. -/
theorem test_regWrite_ctrl : (ran (.regWrite 0 0xFFFFFFFE) (idleAt 0)).passive = false
    ∧ (ran (.regWrite 0 0x00000003) { idleAt 0 with passive := false }).passive = true := by decide
/-- Vector H-15. -/
theorem test_reset : let t := ran .reset { queued with timeUs := 5000000 }
    t.txqCount = 0 ∧ t.passive = true ∧ t.lastHeaterMs = 5000 ∧ t.lastEdge = 5000000 := by decide
/-- Vector H-09. -/
theorem test_illegal : emitted (.illegal 0x00000200) (idleAt 0) = [.diag .illegalCmd .none 0]
    ∧ diagWord .illegalCmd .none 0 = 0x00000007 := by decide
/-- Program P1 reads these STATUS values: ctrl_known and a pending low; section 3: eight packets queued. -/
theorem test_statusWord : statusWord { idleAt 0 with ctrlKnown := true, pendValid := true } = 0x00000048
    ∧ statusWord { idleAt 0 with txqCount := 8 } = 0x00200000 := by decide

/-! ## One step -/

/-- withFetchWord makes the next step run the word, from power-on. -/
theorem test_withFetchWord : (match step (State.reset.withFetchWord 32 0x00000101) with
    | .next t => t.pendValid && t.agenda.isEmpty
    | .fault _ => false
    | .refused _ => false) = true := by decide
/-- The text of a line (30_encoding.md R95). -/
theorem test_lineText : lineText (.txEnqueue .short p9) = "TX_ENQUEUE L9, D2 01 02 03 04 05 06 07 1C"
    ∧ lineText (.regWrite 0 0xFFFFFFFE) = "REG_WRITE CTRL, 0xFFFFFFFE" := by decide

/-! ## Witnesses: states and operands that meet the hypotheses of the obligations -/

theorem witness_DecodeInvertsEncode : wellFormed (.illegal 0xFFFFFFFF) = true ∧ wellFormed (.regWrite 15 0xFFFFFFFF) = true
    ∧ wellFormed (.txEnqueue .short p9) = true := by decide

theorem witness_ReservedSymbolCodesAreRefused :
    ({ State.reset with agenda := [.offer (.symbol 5)] } : State).agenda = .offer (.symbol 5) :: []
    ∧ 5 ≤ (5 : BitVec 3).toNat ∧ 5 ≤ (7 : BitVec 3).toNat := by decide

theorem witness_StepRunsTheOfferedOperation :
    ({ State.reset with agenda := [line .reset] } : State).agenda = .offer (encode .reset) :: []
    ∧ decode (encode .reset) = .ok .reset ∧ decodeTableWord 8 4 = some .idle := ⟨rfl, rfl, rfl⟩

theorem witness_ResetGivesTheResetValues : queued.mode = .receive := rfl

theorem witness_EnabledAfterReset : ResetValues 0 State.reset ∧ (Instr.edge .low).agent = .cap
    ∧ (Instr.regRead 15).agent = .host ∧ ∀ w, Instr.regRead 15 ≠ .illegal w := by
  refine ⟨?_, rfl, rfl, fun _ h => by cases h⟩
  unfold ResetValues; decide

/-- A candidate of three bytes and a bit, a burst, and a queued packet satisfy the invariants, and each takes a step. -/
theorem witness_StepKeepsTheInvariants :
    StateInv { receiving 3 p9 with frBidx := 1, frCur := 1 } ∧ StateInv (sending 5) ∧ StateInv queued
    ∧ (∃ t, step { queued with agenda := [line .txTick] } = .next t) := by
  refine ⟨?_, ?_, ?_, _, rfl⟩ <;>
    unfold StateInv QueueBounds FramerBounds IdleFramerEmpty NotFinalized SourceUndecided LineReleased PartialByteBound <;>
    decide

theorem witness_InvariantsHoldAtEveryStepBoundary :
    ∃ t, Sys2Proof.core.run 3 { State.reset with agenda := [.wait 1000, line (.edge .low), line .rxIdleCheck] } = .next t :=
  ⟨_, rfl⟩

/-- One record at the ring's last index, and one packet in the queue: the least count a pop is taken with. -/
theorem witness_StepKeepsLiveEntriesWritten : QueueBounds oneRecord ∧ LiveEntriesWritten oneRecord ∧ 0 < oneRecord.pqCount
    ∧ QueueBounds queued ∧ LiveEntriesWritten queued ∧ 0 < queued.txqCount
    ∧ (∃ t, step { oneRecord with agenda := [.rxDrain] } = .next t) := by
  refine ⟨?_, ?_, by decide, ?_, ?_, by decide, _, rfl⟩ <;> first | (unfold QueueBounds; decide) | (unfold LiveEntriesWritten; decide)

theorem witness_StepKeepsTimesInThePast : NoFutureTimes (receiving 3 p9) ∧ NoFutureTimes { idleAt 999 with lastTxEndUs := 999 }
    ∧ (∃ t, step { receiving 3 p9 with agenda := [line .idle] } = .next t) := by
  refine ⟨?_, ?_, _, rfl⟩ <;> unfold NoFutureTimes <;> decide

theorem witness_StepKeepsTheBurstState : BurstState (sending 0) ∧ BurstState (sending 1568) ∧ BurstState queued
    ∧ (∃ t, step { sending 0 with agenda := [.txRun] } = .next t) := by
  refine ⟨?_, ?_, ?_, _, rfl⟩
  · exact (by decide : (sending 0).txNseg.toNat = nseg .long ∧ (sending 0).txSeg.toNat ≤ (sending 0).txNseg.toNat)
  · exact (by decide : (sending 1568).txNseg.toNat = nseg .long ∧ (sending 1568).txSeg.toNat ≤ (sending 1568).txNseg.toNat)
  · exact (by decide : queued.txPkt = Packet.zero ∧ queued.txNseg = 0 ∧ queued.txSeg = 0 ∧ queued.txDeadline = 0)

theorem witness_HistoryOnlyGrows : ∃ t, step { receiving 5 p9 with agenda := [line .idle] } = .next t
    ∧ t.history = [⟨1359000, .diag .badLength .idle 5⟩] := ⟨_, rfl, by decide⟩

/-- A step that delivers a frame, with a valid frame in the history already. -/
theorem witness_EveryFrameEventIsValid :
    let s := { receiving 12 v03 with history := [⟨0, .frame .long p12.toList .controller 0⟩] }
    (∀ e ∈ s.history, FrameEventOk e.event) ∧ ∃ t, exec .idle s = .next t ∧ t.history.length = 2 := by
  refine ⟨fun e he => ?_, _, rfl, by decide⟩
  cases List.mem_singleton.1 he
  exact (by decide : p12.toList.length = FrameLen.long.bytes ∧ (Source.controller = .heater ∨ Source.controller = .controller)
    ∧ checksum p12.toList .long = checkByte p12.toList .long)

theorem witness_HeldOperationsChangeNothing : State.reset.pqCount = 0 ∧ 0 < oneRecord.pqCount ∧ (sending 0).mode = .transmit
    ∧ ¬((sending 1568).mode = .transmit ∧ (sending 1568).txSeg.toNat < (sending 1568).txNseg.toNat
        ∧ (sending 1568).timeUs = (sending 1568).txDeadline)
    ∧ ¬((sending 1567).mode = .transmit ∧ (sending 1567).txSeg = (sending 1567).txNseg
        ∧ (sending 1567).timeUs = (sending 1567).txDeadline) := by decide

theorem witness_OnlyResetForgetsTheController : let s := { idleAt 5 with ctrlKnown := true }
    s.ctrlKnown = true ∧ ∃ t, exec .reset s = .next t ∧ t.ctrlKnown = false := ⟨rfl, _, rfl, by decide⟩

theorem witness_OnlyTickAndEndSwitchTheMode :
    (∃ t, exec .txTick queued = .next t ∧ queued.mode = .receive ∧ t.mode = .transmit)
    ∧ ∃ t, exec .txEnd (sending 1568) = .next t ∧ (sending 1568).mode = .transmit ∧ t.mode = .receive :=
  ⟨⟨_, rfl, by decide⟩, _, rfl, by decide⟩

theorem witness_NothingAbortsABurst : (sending 5).mode = .transmit ∧ Instr.regWrite 0 1 ≠ .txEnd
    ∧ Instr.regWrite 0 1 ≠ .txSegment ∧ ∃ t, exec (.regWrite 0 1) (sending 5) = .next t :=
  ⟨rfl, by decide, by decide, _, rfl⟩

theorem witness_OwnBurstIsNotReceived : let s := { oneRecord with mode := .transmit }
    s.mode = .transmit ∧ Instr.rxPop ≠ .txEnd ∧ ∃ t, exec .rxPop s = .next t := ⟨rfl, by decide, _, rfl⟩

theorem witness_WorkersWriteOnlyTheirState : Instr.rxPop.agent = .rxw ∧ Instr.txEnd.agent = .txw
    ∧ (∃ t, exec .rxPop oneRecord = .next t) ∧ ∃ t, exec .txEnd (sending 1568) = .next t :=
  ⟨rfl, rfl, ⟨_, rfl⟩, _, rfl⟩

/-- A full ring, and one with room for one more record. -/
theorem witness_CaptureWritesOnlyItsOwnState : { oneRecord with pqCount := 2048 }.pqCount = 2048
    ∧ { oneRecord with pqCount := 2047 }.pqCount ≠ 2048 ∧ 5 ≠ (oneRecord.pqHead + oneRecord.pqCount) % 2048 := by decide

theorem witness_HostWritesOnlyPassive : (Instr.regWrite 0 0).agent = .host
    ∧ (∀ len pkt, Instr.regWrite 0 0 ≠ .txEnqueue len pkt) ∧ Instr.regWrite 0 0 ≠ .reset
    ∧ ∃ t, exec (.regWrite 0 0) (idleAt 5) = .next t := ⟨rfl, fun _ _ h => (by cases h), by decide, _, rfl⟩

theorem witness_NotifyChangesNoOutcome : ∃ t, exec .txTick queued = .next t := ⟨_, rfl⟩

/-- In Receive mode up to the last value of T; in Transmit mode up to the deadline. -/
theorem witness_WaitAdvancesTime : 0 < 1
    ∧ (idleAt 0xFFFFFFFFFFFFFFFE).timeUs.toNat + 1 < 2 ^ 64 ∧ (idleAt 0xFFFFFFFFFFFFFFFE).mode = .receive
    ∧ (let s := { sending 1 with timeUs := 199999999, agenda := [.wait 1] }
       s.agenda = .wait 1 :: [] ∧ s.mode = .transmit ∧ s.timeUs.toNat + 1 ≤ s.txDeadline.toNat) := by decide

theorem witness_TimeStopsAtTheDeadline : let s := { sending 5 with agenda := [.wait 1] }
    s.mode = .transmit ∧ s.timeUs = s.txDeadline ∧ s.timeUs.toNat ≤ s.txDeadline.toNat ∧ ∃ t, step s = .next t :=
  ⟨rfl, rfl, by decide, _, rfl⟩

theorem witness_EdgeTimesTheHalfPeriod :
    let s := { idleAt 0x300000100 with lastEdge := 0xFFFFFF00 }
    (512 : Word).toNat = (s.timeUs.toNat % 2 ^ 32 + 2 ^ 32 - s.lastEdge.toNat) % 2 ^ 32
    ∧ s.mode = .receive ∧ s.pendValid = false ∧ (sending 0).mode = .transmit := by decide

theorem witness_FallingEdgePublishesTheRecord :
    let s := { idleAt 15000 with lastEdge := 10000, pendValid := true, pendDur := 9000, pqCount := 2048 }
    (5000 : Word).toNat = (s.timeUs.toNat % 2 ^ 32 + 2 ^ 32 - s.lastEdge.toNat) % 2 ^ 32
    ∧ s.mode = .receive ∧ s.pendValid = true ∧ s.pqCount ≤ 2048 ∧ { s with pqCount := 2047 }.pqCount ≤ 2048 := by decide

theorem witness_RxPopExecutesTheOldestRecord : oneRecord.pqHead < 2048 ∧ 0 < oneRecord.pqCount := by decide

/-- A run that takes the RX_POP of its one record, and then nothing more. -/
def drainingRun : Nat → State
  | 0 => { oneRecord with agenda := [line .rxPop] }
  | _ + 1 => ran .rxPop oneRecord

theorem witness_FairRunDrainsTheRing : EndlessRun drainingRun ∧ RxPopEventually drainingRun
    ∧ (∀ m, 0 ≤ m → (drainingRun m).mode = .receive → offered (drainingRun m) ≠ some (.edge .low))
    ∧ 0 < (drainingRun 0).pqCount := by
  refine ⟨fun n => ?_, fun n => ⟨n + 1, Nat.le_succ n, .inl rfl⟩, fun m _ _ => ?_, by decide⟩
  · cases n <;> exact ⟨_, [], rfl, rfl⟩
  · cases m with
    | zero => decide
    | succ k => exact (by decide : offered (ran .rxPop oneRecord) ≠ some (.edge .low))

/-- The steps of that run are fair to the two timed cadences too. -/
theorem test_cadence : takes .rxPop (drainingRun 0) = true
    ∧ rxIdleCheckCadence ((List.range 3).map drainingRun) = true
    ∧ rxIdleCheckCadence [idleAt 0, idleAt 120000] = true ∧ rxIdleCheckCadence [idleAt 0, idleAt 120001] = false
    ∧ txTickCadence [idleAt 0, { idleAt 1500000 with agenda := [line .txTick] }, idleAt 3000000] = true
    ∧ txTickCadence [idleAt 0, idleAt 1500001] = false := by decide

/-- Idle; a bit index of 0 and of 6; the eighth bit of the first, the twelfth and a thirteenth byte. -/
theorem witness_BitSymbolsAccumulate :
    State.reset.frStarted = false ∧ (receiving 12 p12).frStarted = true
    ∧ (0x85 : Byte) = (0x81 : Byte) ||| (1#8 <<< (2 : BitVec 3).toNat)
    ∧ (0 : BitVec 3) ≠ 7 ∧ (6 : BitVec 3) ≠ 7
    ∧ { receiving 11 p12 with frBidx := 7 }.frBidx = 7 ∧ (receiving 11 p12).frLen ≠ 12 ∧ (receiving 0 p12).frLen ≠ 12
    ∧ (receiving 12 p12).frLen = 12 := by decide

theorem witness_EightBitsMakeTheByte : let s := receiving 11 p12
    s.frStarted = true ∧ s.frBidx = 0 ∧ s.frCur = 0 ∧ s.frLen.toNat < 12 := by decide

theorem witness_PreambleStartsAFrame : (receiving 5 p12).frStarted = true ∧ (idleAt 5).frStarted = false := by decide

theorem witness_IdleEndsTheFrame : (idleAt 5).frStarted = false ∧ (receiving 9 p9).frStarted = true := by decide

/-- 50 000 µs and 49 999 µs after the last edge, while Receiving; and while Idle. -/
theorem witness_IdleCheckEndsTheFrame : let s := receiving 9 p9
    50000 = (s.timeUs.toNat % 2 ^ 32 + 2 ^ 32 - s.lastEdge.toNat) % 2 ^ 32 ∧ s.pqCount = 0 ∧ s.frStarted = true
    ∧ 49999 = ((1358999 : Time).toNat % 2 ^ 32 + 2 ^ 32 - s.lastEdge.toNat) % 2 ^ 32 ∧ 49999 < 50000
    ∧ (idleAt 5).frStarted = false ∧ (idleAt 5).pqCount = 0 := by decide

theorem witness_InvalidRecordDiscardsFromNineBytes : (receiving 9 p9).frStarted = true ∧ 9 ≤ (receiving 9 p9).frLen.toNat
    ∧ (receiving 8 p9).frLen.toNat < 9 := by decide

/-- An IDLE record, and a synthesized idle exactly 50 000 µs after the last edge. -/
theorem witness_SecondIdleIsANoOp : (∃ t, exec .idle (receiving 5 p9) = .next t)
    ∧ (receiving 9 p9).pqCount = 0 ∧ 50000 ≤ (durSinceEdge (receiving 9 p9)).toNat
    ∧ (∃ t, exec .rxIdleCheck (receiving 9 p9) = .next t)
    ∧ ∀ i ∈ [Instr.idle, Instr.rxIdleCheck], i = .idle ∨ i = .rxIdleCheck :=
  ⟨⟨_, rfl⟩, rfl, by decide, ⟨_, rfl⟩, by decide⟩

theorem witness_WireRecordsDecodeToTheFrame :
    p12.toList.length = FrameLen.long.bytes ∧ checksum p12.toList .long = checkByte p12.toList .long
    ∧ (p9.toList.take 9).length = FrameLen.short.bytes
    ∧ checksum (p9.toList.take 9) .short = checkByte (p9.toList.take 9) .short ∧ (idleAt 5).frStarted = false := by decide

/-- p9 about to arrive on the wire as the first frame, in the controller polarity. -/
def p9OnTheWire : State :=
  { idleAt 1000000 with
    pqHead := 2047
    agenda := busFrameC (p9.toList.take 9) ++ [AgendaItem.wait 50000, line .rxIdleCheck] }

/-- p12 about to arrive in the heater polarity, where program P1 of 95_test_vectors.md ends: its closing low is pending and the
line has been high for exactly 50 000 µs. -/
def p12OnTheWire : State :=
  { idleAt 1347000 with
    pendValid := true, pendDur := 1000, lastEdge := 1297000
    agenda := busFrameH p12.toList ++ [AgendaItem.wait 50000, line .rxIdleCheck] }

theorem witness_FramesOnTheWireAreDelivered_controller :
    (p9.toList.take 9).length = FrameLen.short.bytes
    ∧ checksum (p9.toList.take 9) .short = checkByte (p9.toList.take 9) .short
    ∧ p9OnTheWire.mode = .receive ∧ p9OnTheWire.frStarted = false ∧ p9OnTheWire.pqCount = 0 ∧ p9OnTheWire.pqHead < 2048
    ∧ (p9OnTheWire.pendValid = false ∨ 50000 ≤ (durSinceEdge p9OnTheWire).toNat)
    ∧ p9OnTheWire.timeUs.toNat + 1000000 < 2 ^ 64
    ∧ p9OnTheWire.agenda = (match Origin.controller with
      | .controller => busFrameC (p9.toList.take 9)
      | .heater => busFrameH (p9.toList.take 9)) ++ [AgendaItem.wait 50000, line .rxIdleCheck] :=
  ⟨by decide, by decide, rfl, rfl, rfl, by decide, .inl rfl, by decide, rfl⟩

theorem witness_FramesOnTheWireAreDelivered_heater :
    p12.toList.length = FrameLen.long.bytes ∧ checksum p12.toList .long = checkByte p12.toList .long
    ∧ p12OnTheWire.mode = .receive ∧ p12OnTheWire.frStarted = false ∧ p12OnTheWire.pqCount = 0
    ∧ p12OnTheWire.pqHead < 2048 ∧ p12OnTheWire.pendValid = true
    ∧ (p12OnTheWire.pendValid = false ∨ 50000 ≤ (durSinceEdge p12OnTheWire).toNat)
    ∧ p12OnTheWire.timeUs.toNat + 1000000 < 2 ^ 64
    ∧ p12OnTheWire.agenda = (match Origin.heater with
      | .controller => busFrameC p12.toList
      | .heater => busFrameH p12.toList) ++ [AgendaItem.wait 50000, line .rxIdleCheck] :=
  ⟨by decide, by decide, rfl, rfl, rfl, by decide, rfl, .inr (by decide), by decide, rfl⟩

theorem witness_PolaritiesAreExclusive : v03.toList.length = FrameLen.long.bytes
    ∧ (p9.toList.take 9).length = FrameLen.short.bytes := by decide

/-- The first and the last byte that enter the test, the lowest and the highest bit, both polarities. -/
theorem witness_SingleFlippedBitIsDetected :
    v03.toList.length = FrameLen.long.bytes ∧ validate v03.toList .long = some .heater
    ∧ 0 < FrameLen.long.bytes ∧ 11 < FrameLen.long.bytes ∧ 0 < 8 ∧ 7 < 8
    ∧ (p9.toList.take 9).length = 9 ∧ validate (p9.toList.take 9) .short = some .controller
    ∧ 1 < FrameLen.short.bytes ∧ 8 < FrameLen.short.bytes := by decide

theorem witness_EnqueueQueuesThePacket : (idleAt 5).passive = true ∧ queued.passive = false ∧ queued.txqCount ≤ 8
    ∧ { queued with txqCount := 8 }.txqCount ≤ 8 := by decide

/-- A tick that starts, at the throttle's and the collision window's first allowed times; and one that does not. -/
theorem witness_TickStartsABurstExactlyWhenAllowed :
    let s := { queued with
      timeUs := 91014000, ctrlKnown := true, lastCtrlMs := 1014, txEver := true, lastTxEndUs := 81014000 }
    s.mode = .receive ∧ s.txqHead < 8
    ∧ (s.passive = false ∧ 0 < s.txqCount ∧ s.frStarted = false
      ∧ (s.txEver = false ∨ s.lastTxEndUs.toNat + 10000000 ≤ s.timeUs.toNat)
      ∧ (s.ctrlKnown = false ∨ s.lastCtrlMs.toNat + 90000 ≤ s.timeUs.toNat / 1000
          ∨ s.timeUs.toNat / 1000 + 4142 < s.lastCtrlMs.toNat + 60000))
    ∧ { s with txqHead := 7 }.txqHead < 8 ∧ (idleAt 5).passive = true := by decide

theorem witness_CollisionWindowIsExact : let s := { idleAt 56872000 with ctrlKnown := true, lastCtrlMs := 1014 }
    s.ctrlKnown = true ∧ s.lastCtrlMs.toNat ≤ (nowMs s).toNat ∧ collisionOk s = false
    ∧ collisionOk { s with timeUs := 56871000 } = true := by decide

/-- 3992 ms before the expected frame, and at its time. -/
theorem witness_NoBurstBeforeAnExpectedControllerFrame :
    let s := { queued with timeUs := 57022000, ctrlKnown := true, lastCtrlMs := 1014 }
    s.ctrlKnown = true ∧ 61014 = s.lastCtrlMs.toNat + 60000 ∧ (nowMs s).toNat ≤ 61014 ∧ 61014 ≤ (nowMs s).toNat + 3992
    ∧ s.mode = .receive ∧ (nowMs { s with timeUs := 61014000 }).toNat = 61014 := by decide

theorem witness_ThrottleSeparatesBursts :
    let s := { queued with txEver := true, lastTxEndUs := 190000000 }
    (∃ t, exec .txTick s = .next t ∧ s.mode = .receive ∧ t.mode = .transmit ∧ s.txEver = true)
    ∧ (∃ t, exec .txEnd (sending 1568) = .next t ∧ (sending 1568).mode = .transmit ∧ t.mode = .receive)
    ∧ Instr.txTick ≠ .txEnd ∧ Instr.txTick ≠ .reset :=
  ⟨⟨_, rfl, by decide⟩, ⟨_, rfl, by decide⟩, by decide, by decide⟩

theorem witness_SegmentsAlternate : 0 < nseg .long ∧ 1567 < nseg .long ∧ 1183 < nseg .short := by decide

/-- The first and the last segment. -/
theorem witness_SegmentIsDriven :
    (segAt (sending 0).txPkt (sending 0).txSeg.toNat = (.low, 9000) ∧ (sending 0).mode = .transmit
      ∧ (sending 0).txSeg.toNat < (sending 0).txNseg.toNat ∧ (sending 0).timeUs = (sending 0).txDeadline
      ∧ (sending 0).txDeadline.toNat + 9000 < 2 ^ 64)
    ∧ segAt (sending 1567).txPkt (sending 1567).txSeg.toNat = (.high, 250000)
    ∧ (sending 1567).txSeg.toNat < (sending 1567).txNseg.toNat := by decide

theorem witness_EndReturnsToReceive : let s := sending 1568
    s.mode = .transmit ∧ s.txSeg = s.txNseg ∧ s.timeUs = s.txDeadline := by decide

theorem witness_BurstRunsToItsEnd : let s := { sending 0 with agenda := [.txRun] }
    s.mode = .transmit ∧ s.txNseg.toNat = nseg s.txPkt.len ∧ s.txSeg = 0 ∧ s.txDeadline = s.timeUs
    ∧ s.timeUs.toNat + burstUs s.txPkt < 2 ^ 64 ∧ s.agenda = [.txRun] := by decide

theorem witness_StatusFields : { queued with txqCount := 8 }.txqCount ≤ 8 ∧ queued.txqCount ≤ 8 := by decide

/-- The first and the last register of each clause. -/
theorem witness_Registers : 8 ≤ (8 : BitVec 4).toNat ∧ 8 ≤ (15 : BitVec 4).toNat ∧ (15 : BitVec 4) ≠ 0 := by decide

end Sys2Proof.Tests
end

section
/-! Held steps (00_scope.md R13): an operation that is not enabled leaves the state as it is. -/

namespace Sys2Proof.Machine

open Sys2Proof

/-- An operation that is not enabled is held (00_scope.md R13). The six operations with an enabling condition test it before
they do anything; every other operation is always enabled. -/
theorem exec_of_not_enabled {i : Instr} {s : State} (h : enabled i s = false) : exec i s = .next s := by
  have held (body : State) : (if enabled i s then body else s) = s := by
    rw [h, if_neg Bool.false_ne_true]
  rw [exec_eq]
  cases i with
  | rxPop | rxIdleCheck | txTick | txSegment | txEnd | reset => exact congrArg _ (held _)
  | edge | txEnqueue | regRead | regWrite | illegal | invalid | bit0 | bit1 | preamble | idle => cases h

/-- RX_POP is held exactly where the ring is empty (41_framer.md R144). -/
theorem enabled_rxPop_eq_false_iff (s : State) : enabled .rxPop s = false ↔ s.pqCount = 0 := by
  rw [enabled, rxPopEnabled, decide_eq_false_iff_not, Nat.pos_iff_ne_zero, not_not]

/-- RX_IDLE_CHECK is held exactly where the ring holds a record (41_framer.md R150). -/
theorem enabled_rxIdleCheck_eq_false_iff (s : State) : enabled .rxIdleCheck s = false ↔ 0 < s.pqCount := by
  rw [enabled, rxIdleCheckEnabled, decide_eq_false_iff_not, Nat.pos_iff_ne_zero]

/-- TX_TICK is held in Transmit mode (43_transmit.md R196). -/
theorem enabled_txTick_of_transmit {s : State} (h : s.mode = .transmit) : enabled .txTick s = false := by
  rw [enabled, txTickEnabled, h]; rfl

/-- RESET is held in Transmit mode (44_host.md R236). -/
theorem enabled_reset_of_transmit {s : State} (h : s.mode = .transmit) : enabled .reset s = false := by
  rw [enabled, resetEnabled, h]; rfl

/-- TX_SEGMENT is held exactly where no segment is due (43_transmit.md R204). -/
theorem enabled_txSegment_eq_false_iff (s : State) : enabled .txSegment s = false ↔
    ¬(s.mode = .transmit ∧ s.txSeg.toNat < s.txNseg.toNat ∧ s.timeUs = s.txDeadline) := by
  rw [← txSegmentEnabled_iff, Bool.not_eq_true, enabled]

/-- TX_END is held exactly where the end of a burst is not due (43_transmit.md R207). -/
theorem enabled_txEnd_eq_false_iff (s : State) : enabled .txEnd s = false ↔
    ¬(s.mode = .transmit ∧ s.txSeg = s.txNseg ∧ s.timeUs = s.txDeadline) := by
  rw [← txEndEnabled_iff, Bool.not_eq_true, enabled]

/-- Settles O18: in each clause the operation is not enabled, so its step is held. -/
theorem heldOperationsChangeNothing : Obligations.HeldOperationsChangeNothing := by
  intro s
  refine ⟨fun hempty => ?rxPop, fun hrecord => ?rxIdleCheck, fun htransmit => ⟨?txTick, ?reset⟩,
    fun hnotDue => ?txSegment, fun hnotDue => ?txEnd⟩ <;> apply exec_of_not_enabled
  case rxPop => exact (enabled_rxPop_eq_false_iff s).2 hempty
  case rxIdleCheck => exact (enabled_rxIdleCheck_eq_false_iff s).2 hrecord
  case txTick => exact enabled_txTick_of_transmit htransmit
  case reset => exact enabled_reset_of_transmit htransmit
  case txSegment => exact (enabled_txSegment_eq_false_iff s).2 hnotDue
  case txEnd => exact (enabled_txEnd_eq_false_iff s).2 hnotDue

end Sys2Proof.Machine
end

section
/-! What an operation can do to each part of the state: to T and the burst, to each queue, to the framer and to the output
history. Every invariant below is read off one of these. -/

namespace Sys2Proof.Machine

open Sys2Proof Sys2Proof.Safety

/-! ## T and the burst -/

/-- `t` has the T, the mode, the burst state, the throttle state and the driver of `s` (10_state.md R22, R24, R37, R38, R40). -/
structure SameBurst (s t : State) : Prop where
  timeUs : t.timeUs = s.timeUs
  mode : t.mode = s.mode
  txPkt : t.txPkt = s.txPkt
  txNseg : t.txNseg = s.txNseg
  txSeg : t.txSeg = s.txSeg
  txDeadline : t.txDeadline = s.txDeadline
  txEver : t.txEver = s.txEver
  lastTxEndUs : t.lastTxEndUs = s.lastTxEndUs
  busDrive : t.busDrive = s.busDrive

theorem captureEdge_sameBurst (l : Level) (s : State) : SameBurst s (captureEdge l s) := by
  rw [captureEdge_frame]; constructor <;> rfl

theorem runSymbol_sameBurst (sym : Symbol) (s : State) : SameBurst s (runSymbol sym s) := by
  rw [runSymbol_frame]; constructor <;> rfl

theorem endFrame_sameBurst (trig : Trigger) (s : State) : SameBurst s (endFrame trig s) := by
  obtain ⟨e, ck, lc, lh, h, -⟩ := endFrame_form trig s
  rw [h]; constructor <;> rfl

theorem enqueuePacket_sameBurst (len : FrameLen) (pkt : Bytes12) (s : State) : SameBurst s (enqueuePacket len pkt s) := by
  rcases enqueuePacket_cases len pkt s with ⟨-, h⟩ | ⟨-, h⟩ <;> rw [h]
  · constructor <;> rfl
  · rw [txqPush_frame]; constructor <;> rfl

/-- Only a burst start, a segment, a burst end and RESET write the burst. A property of what these leave, and of every state
with the same burst, holds of the state an operation answers. -/
theorem after_burst_induction {P : State → Prop} (i : Instr) (s : State) (same : ∀ t, SameBurst s t → P t)
    (start : i = .txTick → s.mode = .receive → startOk s = true → P (burstStart { s with txNotify := false }))
    (segment : i = .txSegment → s.mode = .transmit → s.txSeg.toNat < s.txNseg.toNat → P (driveSegment s))
    (burstEnd : i = .txEnd → s.mode = .transmit → P (endBurst s))
    (reset : i = .reset → s.mode = .receive → P (resetBlock s)) : P (after i s) := by
  apply after_induction i s
  case held => exact same s (by constructor <;> rfl)
  case edge => exact fun l _ _ => same _ (captureEdge_sameBurst l s)
  case pop =>
    intro _ _ sym
    refine same _ ?_
    rw [runSymbol_frame]; constructor <;> rfl
  case idleEnd => exact fun _ _ => same _ (endFrame_sameBurst .synthIdle s)
  case enqueue => exact fun len pkt _ => same _ (enqueuePacket_sameBurst len pkt s)
  case tick =>
    intro hi hmode
    rcases schedulerTick_cases s with ⟨hok, h⟩ | ⟨-, h⟩ <;> rw [h]
    · exact start hi hmode hok
    · exact same _ (by constructor <;> rfl)
  case segment => exact fun hi hmode hlt _ => segment hi hmode hlt
  case burstEnd => exact fun hi hmode _ _ => burstEnd hi hmode
  case read => exact fun r _ => same _ (by constructor <;> rfl)
  case write => exact fun r d _ => same _ (by constructor <;> rfl)
  case reset => exact reset
  case illegal => exact fun w _ => same _ (by constructor <;> rfl)
  case symbol => exact fun sym _ => same _ (runSymbol_sameBurst sym s)

/-- No operation writes T (10_state.md R22). -/
@[simp] theorem after_timeUs (i : Instr) (s : State) : (after i s).timeUs = s.timeUs := by
  apply after_burst_induction (P := fun t => t.timeUs = s.timeUs)
  case same => exact fun t h => h.timeUs
  case start | segment | burstEnd | reset => intros; rfl

/-! ## The queues -/

/-- What an operation can do to the pulse ring: nothing, a pop, a push, or RESET's clearing. -/
theorem after_pq_induction {P : Nat → Nat → List (Nat × PulseRecord) → Prop} (i : Instr) (s : State)
    (same : P s.pqHead s.pqCount s.pqBuf)
    (pop : P (pqDrop s).pqHead (pqDrop s).pqCount (pqDrop s).pqBuf)
    (push : ∀ rec, P (pqPush rec s).pqHead (pqPush rec s).pqCount (pqPush rec s).pqBuf)
    (cleared : P 0 0 []) : P (after i s).pqHead (after i s).pqCount (after i s).pqBuf := by
  apply after_induction (P := fun t => P t.pqHead t.pqCount t.pqBuf) i s
  case held => exact same
  case edge =>
    intro l _ _
    rcases captureEdge_cases l s with ⟨-, h⟩ | ⟨-, -, h⟩ | ⟨-, -, h⟩ <;> rw [h]
    · exact same
    · exact push _
    · exact same
  case pop => intro _ _ sym; rw [runSymbol_frame]; exact pop
  case idleEnd => intro _ _; obtain ⟨e, ck, lc, lh, h, -⟩ := endFrame_form .synthIdle s; rw [h]; exact same
  case enqueue =>
    intro len pkt _
    rcases enqueuePacket_cases len pkt s with ⟨-, h⟩ | ⟨-, h⟩ <;> rw [h]
    · exact same
    · rw [txqPush_frame]; exact same
  case tick => intro _ _; rw [schedulerTick_frame]; exact same
  case segment => intros; exact same
  case burstEnd => intros; exact same
  case read => intros; exact same
  case write => intros; exact same
  case reset => intros; exact cleared
  case illegal => intros; exact same
  case symbol => intro sym _; rw [runSymbol_frame]; exact same

/-- What an operation can do to the outbound queue: nothing, a pop, a push, or RESET's clearing. -/
theorem after_txq_induction {P : Nat → Nat → List (Nat × Packet) → Prop} (i : Instr) (s : State)
    (same : P s.txqHead s.txqCount s.txqBuf)
    (pop : P (txqDrop s).txqHead (txqDrop s).txqCount (txqDrop s).txqBuf)
    (push : ∀ pkt, P (txqPush pkt s).txqHead (txqPush pkt s).txqCount (txqPush pkt s).txqBuf)
    (cleared : P 0 0 []) : P (after i s).txqHead (after i s).txqCount (after i s).txqBuf := by
  apply after_induction (P := fun t => P t.txqHead t.txqCount t.txqBuf) i s
  case held => exact same
  case edge => intro l _ _; rw [captureEdge_frame]; exact same
  case pop => intro _ _ sym; rw [runSymbol_frame]; exact same
  case idleEnd => intro _ _; obtain ⟨e, ck, lc, lh, h, -⟩ := endFrame_form .synthIdle s; rw [h]; exact same
  case enqueue =>
    intro len pkt _
    rcases enqueuePacket_cases len pkt s with ⟨-, h⟩ | ⟨-, h⟩ <;> rw [h]
    · exact same
    · exact push _
  case tick =>
    intro _ _
    rcases schedulerTick_cases s with ⟨-, h⟩ | ⟨-, h⟩ <;> rw [h]
    · exact pop
    · exact same
  case segment => intros; exact same
  case burstEnd => intros; exact same
  case read => intros; exact same
  case write => intros; exact same
  case reset => intros; exact cleared
  case illegal => intros; exact same
  case symbol => intro sym _; rw [runSymbol_frame]; exact same

/-! ## The output history -/

/-- `t` has the history of `s`, or one more event, stamped with T; a Frame event is a valid one (10_state.md R45, R46). -/
def EmitsAtMostOne (s t : State) : Prop :=
  t.history = s.history ∨ ∃ e, t.history = s.history ++ [⟨s.timeUs, e⟩] ∧ FrameEventOk e

/-- VALIDATE answers CONTROLLER where the bytes as captured have the right checksum (42_checksum.md R172). -/
theorem checksum_of_validate_controller {buf : List Byte} {len : FrameLen} (h : validate buf len = some .controller) :
    checksum buf len = checkByte buf len := by
  by_contra hne
  rw [validate, if_neg hne] at h
  dsimp only at h
  split at h <;> cases h

/-- VALIDATE answers HEATER where the complemented bytes have the right checksum (42_checksum.md R172). -/
theorem checksum_of_validate_heater {buf : List Byte} {len : FrameLen} (h : validate buf len = some .heater) :
    checksum (complement buf len) len = checkByte (complement buf len) len := by
  rw [validate] at h
  dsimp only at h
  split at h
  · cases h
  · split at h
    · assumption
    · cases h

/-- A frame end emits one event, and a Frame event only with the bytes VALIDATE accepted (41_framer.md R143). -/
theorem endFrame_emits (trig : Trigger) (s : State) : EmitsAtMostOne s (endFrame trig s) := by
  rcases endFrame_ends trig s with ⟨-, -, h⟩ | ⟨len, -, h⟩
  · rw [h]; exact .inr ⟨_, rfl, trivial⟩
  · have hlen : (s.frBuf.toList.take len.bytes).length = len.bytes := by cases len <;> simp [FrameLen.bytes]
    split at h <;> rename_i hv <;> rw [h]
    · exact .inr ⟨_, rfl, trivial⟩
    · exact .inr ⟨_, rfl, hlen, .inr rfl, checksum_of_validate_controller hv⟩
    · have hsum := checksum_of_validate_heater hv
      rw [complement, List.take_take, Nat.min_self] at hsum
      exact .inr ⟨_, rfl, by rw [List.length_map, hlen], .inl rfl, hsum⟩

theorem appendBit_emits (b : Bool) (s : State) : EmitsAtMostOne s (appendBit b s) := by
  rcases appendBit_cases b s with ⟨-, h⟩ | ⟨-, -, h⟩ | ⟨-, -, h⟩ <;> rw [h]
  · exact .inl rfl
  · exact .inr ⟨_, rfl, trivial⟩
  · exact .inl rfl

/-- A symbol that ends one frame and starts the next emits what the frame end does (41_framer.md R145). -/
theorem runSymbol_emits (sym : Symbol) (s : State) : EmitsAtMostOne s (runSymbol sym s) := by
  apply runSymbol_induction sym s
  case unchanged => exact .inl rfl
  case append => exact fun b _ => appendBit_emits b s
  case frameEnd => exact fun _ => endFrame_emits .idle s
  case discard => exact fun _ _ => .inr ⟨_, rfl, trivial⟩
  case start => exact fun _ => .inl rfl
  case restart => exact fun _ => endFrame_emits .preamble s

theorem enqueuePacket_emits (len : FrameLen) (pkt : Bytes12) (s : State) :
    EmitsAtMostOne s (enqueuePacket len pkt s) := by
  rcases enqueuePacket_cases len pkt s with ⟨-, h⟩ | ⟨-, h⟩ <;> rw [h]
  · exact .inr ⟨_, rfl, trivial⟩
  · rw [txqPush_frame]
    by_cases hfull : s.txqCount = Config.txqCap
    · rw [if_pos hfull]; exact .inr ⟨_, rfl, trivial⟩
    · rw [if_neg hfull, List.append_nil]; exact .inl rfl

/-- Every operation emits at most one event, and no Frame event but a valid one. -/
theorem after_emits (i : Instr) (s : State) : EmitsAtMostOne s (after i s) := by
  apply after_induction i s
  case held => exact .inl rfl
  case edge => intro l _ _; rw [captureEdge_frame]; exact .inl rfl
  case pop => exact fun _ _ sym => runSymbol_emits sym (pqDrop s)
  case idleEnd => exact fun _ _ => endFrame_emits .synthIdle s
  case enqueue => exact fun len pkt _ => enqueuePacket_emits len pkt s
  case tick => intro _ _; rw [schedulerTick_frame]; exact .inl rfl
  case segment => intros; exact .inr ⟨_, rfl, trivial⟩
  case burstEnd => intros; exact .inr ⟨_, rfl, trivial⟩
  case read => intros; exact .inr ⟨_, rfl, trivial⟩
  case write => intros; exact .inl rfl
  case reset => intros; exact .inl rfl
  case illegal => intros; exact .inr ⟨_, rfl, trivial⟩
  case symbol => exact fun sym _ => runSymbol_emits sym s

/-! ## Steps -/

/-- A property of states that does not look at the agenda, and that every operation and TIME keep, is kept by every step. -/
theorem step_preserves {P : State → Prop} (agenda : ∀ s todo, P s → P { s with agenda := todo })
    (op : ∀ i s, P s → P (after i s)) (time : ∀ n s, P s → P (advanceTime n s)) {s t : State}
    (hs : P s) (h : step s = .next t) : P t := by
  obtain ⟨todo, u, rfl, rfl | ⟨i, hi⟩ | ⟨n, rfl⟩⟩ := step_cases h
  · exact agenda s todo hs
  · rw [exec_next hi]; exact op i _ (agenda s todo hs)
  · exact time n _ (agenda s todo hs)

/-- A property that looks at neither T nor the agenda, and that every operation keeps, is kept by every step. -/
theorem step_preserves_of_ops {P : State → Prop}
    (timeless : ∀ s todo now, P s → P { s with agenda := todo, timeUs := now }) (op : ∀ i s, P s → P (after i s))
    {s t : State} (hs : P s) (h : step s = .next t) : P t := by
  refine step_preserves (fun u todo hu => timeless u todo u.timeUs hu) op (fun n u hu => ?_) hs h
  rw [advanceTime_frame]
  exact timeless u u.agenda _ hu

end Sys2Proof.Machine
end

section
/-! The seven invariants of 10_state.md R49: every operation keeps them, so every step does, and every run from power-on. -/

namespace Sys2Proof.Machine

open Sys2Proof Sys2Proof.Safety

/-! ## The queue bounds (R49 item 1) -/

theorem pqPush_pqHead_lt (rec : PulseRecord) {s : State} (h : s.pqHead < Config.pqCap) :
    (pqPush rec s).pqHead < Config.pqCap := by
  rcases pqMakeRoom_cases s with ⟨-, hr⟩ | ⟨-, hr⟩ <;> rw [pqPush, hr]
  · exact Nat.mod_lt _ (by decide)
  · exact h

theorem txqPush_txqHead_lt (pkt : Packet) {s : State} (h : s.txqHead < Config.txqCap) :
    (txqPush pkt s).txqHead < Config.txqCap := by
  rcases txqMakeRoom_cases s with ⟨-, hr⟩ | ⟨-, hr⟩ <;> rw [txqPush, hr]
  · exact Nat.mod_lt _ (by decide)
  · exact h

theorem after_pqBounds (i : Instr) {s : State} (hcount : s.pqCount ≤ Config.pqCap) (hhead : s.pqHead < Config.pqCap) :
    (after i s).pqCount ≤ Config.pqCap ∧ (after i s).pqHead < Config.pqCap := by
  apply after_pq_induction (P := fun head count _ => count ≤ Config.pqCap ∧ head < Config.pqCap)
  case same => exact ⟨hcount, hhead⟩
  case pop => exact ⟨(Nat.sub_le _ _).trans hcount, Nat.mod_lt _ (by decide)⟩
  case push => exact fun rec => ⟨(pqPush_pqCount rec hcount).trans_le (Nat.min_le_right _ _), pqPush_pqHead_lt rec hhead⟩
  case cleared => decide

theorem after_txqBounds (i : Instr) {s : State} (hcount : s.txqCount ≤ Config.txqCap) (hhead : s.txqHead < Config.txqCap) :
    (after i s).txqCount ≤ Config.txqCap ∧ (after i s).txqHead < Config.txqCap := by
  apply after_txq_induction (P := fun head count _ => count ≤ Config.txqCap ∧ head < Config.txqCap)
  case same => exact ⟨hcount, hhead⟩
  case pop => exact ⟨(Nat.sub_le _ _).trans hcount, Nat.mod_lt _ (by decide)⟩
  case push =>
    exact fun pkt => ⟨(txqPush_txqCount pkt hcount).trans_le (Nat.min_le_right _ _), txqPush_txqHead_lt pkt hhead⟩
  case cleared => decide

theorem after_queueBounds (i : Instr) {s : State} (h : QueueBounds s) : QueueBounds (after i s) := by
  obtain ⟨hpc, htc, hph, hth⟩ := h
  obtain ⟨hpc', hph'⟩ := after_pqBounds i hpc hph
  obtain ⟨htc', hth'⟩ := after_txqBounds i htc hth
  exact ⟨hpc', htc', hph', hth'⟩

/-! ## The framer (R49 items 2, 3, 4, 5 and 7) -/

/-- The five invariants of R49 that speak of the framer alone. -/
structure FramerInv (s : State) : Prop where
  bounds : FramerBounds s
  idleEmpty : IdleFramerEmpty s
  notFinalized : NotFinalized s
  undecided : SourceUndecided s
  partialByte : PartialByteBound s

theorem stateInv_iff (s : State) : StateInv s ↔ QueueBounds s ∧ FramerInv s ∧ LineReleased s := by
  constructor
  · rintro ⟨hq, hb, hi, hf, hu, hl, hp⟩
    exact ⟨hq, ⟨hb, hi, hf, hu, hp⟩, hl⟩
  · rintro ⟨hq, ⟨hb, hi, hf, hu, hp⟩, hl⟩
    exact ⟨hq, hb, hi, hf, hu, hl, hp⟩

/-- FR_RESET establishes the framer's invariants, whatever was before (41_framer.md R140). -/
theorem frReset_framerInv (s : State) : FramerInv (frReset s) where
  bounds := by simp [FramerBounds]
  idleEmpty _ := ⟨rfl, rfl, rfl, rfl, rfl, rfl⟩
  notFinalized := rfl
  undecided _ := rfl
  partialByte := by simp [PartialByteBound]

/-- FR_START establishes them too (41_framer.md R142). -/
theorem frStart_framerInv (s : State) : FramerInv (frStart s) where
  bounds := by simp [FramerBounds]
  idleEmpty h := by cases h
  notFinalized := rfl
  undecided _ := rfl
  partialByte := by simp [PartialByteBound]

theorem endFrame_framerInv (trig : Trigger) (s : State) : FramerInv (endFrame trig s) := by
  obtain ⟨e, ck, lc, lh, h, -⟩ := endFrame_form trig s
  rw [h]; exact frReset_framerInv _

/-- A bit put at `fr_bidx` leaves the partial byte below the next power of two (41_framer.md R141, R49 item 7). -/
theorem accumulate_lt (b : Bool) {s : State} (h : PartialByteBound s) :
    (accumulate b s).toNat < 2 ^ (s.frBidx.toNat + 1) := by
  have hbit : ((if b then 1#8 else 0#8) <<< s.frBidx.toNat).toNat ≤ 2 ^ s.frBidx.toNat := by
    rw [BitVec.toNat_shiftLeft, Nat.shiftLeft_eq]
    refine (Nat.mod_le _ _).trans ?_
    cases b <;> simp
  rw [accumulate, BitVec.toNat_or]
  refine Nat.or_lt_two_pow (h.trans (Nat.pow_lt_pow_right (by decide) (Nat.lt_succ_self _))) (hbit.trans_lt ?_)
  exact Nat.pow_lt_pow_right (by decide) (Nat.lt_succ_self _)

/-- APPEND keeps the framer's invariants while a frame is being received (41_framer.md R141). -/
theorem appendBit_framerInv (b : Bool) {s : State} (hs : s.frStarted = true) (h : FramerInv s) :
    FramerInv (appendBit b s) := by
  obtain ⟨hlen, -⟩ := h.bounds
  rcases appendBit_cases b s with ⟨hb, he⟩ | ⟨-, -, he⟩ | ⟨-, hl, he⟩ <;> rw [he]
  · have hnext : (s.frBidx + 1).toNat = s.frBidx.toNat + 1 := by bv_omega
    have hbidx := (s.frBidx + 1).isLt
    refine ⟨⟨hlen, Nat.le_of_lt_succ hbidx⟩, fun hidle => ?_, h.notFinalized, h.undecided, ?_⟩
    · exact absurd (hs.symm.trans hidle) (by decide)
    · show (accumulate b s).toNat < 2 ^ (s.frBidx + 1).toNat
      rw [hnext]; exact accumulate_lt b h.partialByte
  · exact frReset_framerInv _
  · refine ⟨⟨?_, Nat.zero_le _⟩, fun hidle => ?_, h.notFinalized, h.undecided, Nat.one_pos⟩
    · show (s.frLen + 1).toNat ≤ 12
      bv_omega
    · exact absurd (hs.symm.trans hidle) (by decide)

theorem runSymbol_framerInv (sym : Symbol) {s : State} (h : FramerInv s) : FramerInv (runSymbol sym s) := by
  apply runSymbol_induction sym s
  case unchanged => exact h
  case append => exact fun b hs => appendBit_framerInv b hs h
  case frameEnd => exact fun _ => endFrame_framerInv .idle s
  case discard => exact fun _ _ => frReset_framerInv _
  case start => exact fun _ => frStart_framerInv s
  case restart => exact fun _ => frStart_framerInv _

/-- The framer's invariants look at the framer's elements only. -/
theorem FramerInv.congr {s t : State} (h : FramerInv s)
    (hframer : (t.frBuf, t.frLen, t.frCur, t.frBidx, t.frSrc, t.frStarted, t.frFinalized, t.frTimeMs)
      = (s.frBuf, s.frLen, s.frCur, s.frBidx, s.frSrc, s.frStarted, s.frFinalized, s.frTimeMs)) : FramerInv t := by
  simp only [Prod.mk.injEq] at hframer
  obtain ⟨hbuf, hlen, hcur, hbidx, hsrc, hst, hfin, htime⟩ := hframer
  obtain ⟨hb, hi, hf, hu, hp⟩ := h
  constructor
  · rwa [FramerBounds, hlen, hbidx]
  · rwa [IdleFramerEmpty, hst, hlen, hcur, hbidx, hsrc, htime, hbuf]
  · rwa [NotFinalized, hfin]
  · rwa [SourceUndecided, hst, hsrc]
  · rwa [PartialByteBound, hcur, hbidx]

theorem after_framerInv (i : Instr) {s : State} (h : FramerInv s) : FramerInv (after i s) := by
  apply after_induction i s
  case held => exact h
  case edge => intro l _ _; rw [captureEdge_frame]; exact h.congr rfl
  case pop => exact fun _ _ sym => runSymbol_framerInv sym (h.congr rfl)
  case idleEnd => exact fun _ _ => endFrame_framerInv .synthIdle s
  case enqueue =>
    intro len pkt _
    rcases enqueuePacket_cases len pkt s with ⟨-, he⟩ | ⟨-, he⟩ <;> rw [he]
    · exact h.congr rfl
    · rw [txqPush_frame]; exact h.congr rfl
  case tick => intro _ _; rw [schedulerTick_frame]; exact h.congr rfl
  case segment => intros; exact h.congr rfl
  case burstEnd => intros; exact (frReset_framerInv s).congr rfl
  case read => intros; exact h.congr rfl
  case write => intros; exact h.congr rfl
  case reset => intros; exact (frReset_framerInv s).congr rfl
  case illegal => intros; exact h.congr rfl
  case symbol => exact fun sym _ => runSymbol_framerInv sym h

/-! ## The line (R49 item 6) -/

theorem after_lineReleased (i : Instr) {s : State} (h : LineReleased s) : LineReleased (after i s) := by
  apply after_burst_induction i s
  case same =>
    intro t ht hmode
    rw [ht.txSeg, ht.txNseg, ht.busDrive]
    exact h (ht.mode ▸ hmode)
  case start => intro _ _ _ hmode; cases hmode
  case segment => intro _ htx _ hmode; cases htx.symm.trans hmode
  case burstEnd => exact fun _ _ _ => ⟨rfl, rfl, rfl⟩
  case reset => exact fun _ _ _ => ⟨rfl, rfl, rfl⟩

/-! ## All seven -/

theorem after_stateInv (i : Instr) {s : State} (h : StateInv s) : StateInv (after i s) := by
  rw [stateInv_iff] at h ⊢
  obtain ⟨hqueues, hframer, hline⟩ := h
  exact ⟨after_queueBounds i hqueues, after_framerInv i hframer, after_lineReleased i hline⟩

/-- Settles O10: the invariants do not look at T or the agenda, and every operation keeps them. -/
theorem stepKeepsTheInvariants : Obligations.StepKeepsTheInvariants := fun _ _ =>
  step_preserves_of_ops (P := StateInv) (fun _ _ _ hu => hu) fun i _ hu => after_stateInv i hu

/-- The seven invariants hold at power-on (10_state.md R48, R49). -/
theorem reset_stateInv (todo : List AgendaItem) : StateInv { State.reset with agenda := todo } :=
  (stateInv_iff _).2 ⟨⟨Nat.zero_le _, Nat.zero_le _, Nat.zero_lt_succ _, Nat.zero_lt_succ _⟩,
    (frReset_framerInv State.reset).congr rfl, fun _ => ⟨rfl, rfl, rfl⟩⟩

/-- What every step keeps, every run keeps. -/
theorem run_preserves {P : State → Prop} (hstep : ∀ s t, P s → step s = .next t → P t) (k : Nat) {s t : State}
    (hs : P s) (h : core.run k s = .next t) : P t := by
  induction k generalizing s with
  | zero => cases h; exact hs
  | succ k ih =>
    simp only [Host.Core.run] at h
    split at h
    · rename_i u hu
      exact ih (hstep s u hs hu) h
    · cases h
    · cases h

/-- Settles O11: power-on meets the invariants and every step keeps them (O10). -/
theorem invariantsHoldAtEveryStepBoundary : Obligations.InvariantsHoldAtEveryStepBoundary := fun todo k _ h =>
  run_preserves stepKeepsTheInvariants k (reset_stateInv todo) h

/-- Settles O9: the queues are empty, the framer is Idle, no time but 0 is recorded and no burst runs. -/
theorem invariantsHoldAtReset : Obligations.InvariantsHoldAtReset := by
  refine ⟨reset_stateInv [], ⟨.nil, .nil, ?_, ?_⟩, ?_, ⟨rfl, rfl, rfl, rfl⟩⟩
  · exact fun k hk => absurd hk (Nat.not_lt_zero k)
  · exact fun k hk => absurd hk (Nat.not_lt_zero k)
  · exact ⟨Nat.zero_le _, Nat.zero_le _, Nat.zero_le _, Nat.zero_le _⟩

end Sys2Proof.Machine
end

section
/-! No pop reads an unspecified queue entry (10_state.md R48): the written entries of a ring, once for both queues. -/

namespace Sys2Proof.Machine

open Sys2Proof Sys2Proof.Safety

section Ring

variable {α : Type} {cap head count : Nat} {buf : List (Nat × α)}

/-- The storage of a ring is in canonical form, and its live entries have been written. -/
def RingWritten (cap head count : Nat) (buf : List (Nat × α)) : Prop :=
  slotsSorted buf ∧ ∀ k < count, (slotRead ((head + k) % cap) buf).isSome

theorem RingWritten.empty : RingWritten cap head 0 ([] : List (Nat × α)) :=
  ⟨.nil, fun k hk => absurd hk (Nat.not_lt_zero k)⟩

/-- A pop leaves written entries only. -/
theorem RingWritten.drop (h : RingWritten cap head count buf) : RingWritten cap ((head + 1) % cap) (count - 1) buf := by
  obtain ⟨hsorted, hwritten⟩ := h
  refine ⟨hsorted, fun k hk => ?_⟩
  rw [ring_index_succ]
  exact hwritten (k + 1) (by omega)

/-- A store behind the newest entry writes the one entry that becomes live. -/
theorem RingWritten.store (v : α) (h : RingWritten cap head count buf) :
    RingWritten cap head (count + 1) (slotWrite ((head + count) % cap) v buf) := by
  obtain ⟨hsorted, hwritten⟩ := h
  refine ⟨slotWrite_sorted hsorted, fun k hk => ?_⟩
  by_cases hnew : (head + k) % cap = (head + count) % cap
  · rw [hnew, slotRead_slotWrite_same]; rfl
  · have hold : k ≠ count := fun h => hnew (h ▸ rfl)
    rw [slotRead_slotWrite_other hnew]
    exact hwritten k (by omega)

/-- The entry at the head of a ring that holds one is a written one. -/
theorem RingWritten.head_written (h : RingWritten cap head count buf) (hhead : head < cap) (hcount : 0 < count) (d : α) :
    slotRead head buf = some ((slotRead head buf).getD d) := by
  have hsome := h.2 0 hcount
  rw [Nat.add_zero, Nat.mod_eq_of_lt hhead] at hsome
  obtain ⟨v, hv⟩ := Option.isSome_iff_exists.1 hsome
  rw [hv]; rfl

end Ring

theorem liveEntriesWritten_iff (s : State) : LiveEntriesWritten s ↔
    RingWritten Config.pqCap s.pqHead s.pqCount s.pqBuf ∧ RingWritten Config.txqCap s.txqHead s.txqCount s.txqBuf :=
  ⟨fun ⟨hp, ht, hpw, htw⟩ => ⟨⟨hp, hpw⟩, ht, htw⟩, fun ⟨⟨hp, hpw⟩, ht, htw⟩ => ⟨hp, ht, hpw, htw⟩⟩

theorem after_pqWritten (i : Instr) {s : State} (h : RingWritten Config.pqCap s.pqHead s.pqCount s.pqBuf) :
    RingWritten Config.pqCap (after i s).pqHead (after i s).pqCount (after i s).pqBuf := by
  apply after_pq_induction (P := RingWritten Config.pqCap)
  case same => exact h
  case pop => exact h.drop
  case push =>
    intro rec
    rcases pqMakeRoom_cases s with ⟨-, hr⟩ | ⟨-, hr⟩ <;> rw [pqPush, hr]
    · exact h.drop.store rec
    · exact h.store rec
  case cleared => exact .empty

theorem after_txqWritten (i : Instr) {s : State} (h : RingWritten Config.txqCap s.txqHead s.txqCount s.txqBuf) :
    RingWritten Config.txqCap (after i s).txqHead (after i s).txqCount (after i s).txqBuf := by
  apply after_txq_induction (P := RingWritten Config.txqCap)
  case same => exact h
  case pop => exact h.drop
  case push =>
    intro pkt
    rcases txqMakeRoom_cases s with ⟨-, hr⟩ | ⟨-, hr⟩ <;> rw [txqPush, hr]
    · exact h.drop.store pkt
    · exact h.store pkt
  case cleared => exact .empty

theorem after_liveEntriesWritten (i : Instr) {s : State} (h : LiveEntriesWritten s) : LiveEntriesWritten (after i s) := by
  rw [liveEntriesWritten_iff] at h ⊢
  exact h.imp (after_pqWritten i) (after_txqWritten i)

/-- Settles O12: the head of a queue that holds an entry is live, and every operation keeps the live entries written. -/
theorem stepKeepsLiveEntriesWritten : Obligations.StepKeepsLiveEntriesWritten := by
  rintro s ⟨-, -, hpHead, htHead⟩ hs
  obtain ⟨hpq, htxq⟩ := (liveEntriesWritten_iff s).1 hs
  refine ⟨fun hcount => hpq.head_written hpHead hcount _, fun hcount => htxq.head_written htHead hcount _, fun t => ?_⟩
  exact step_preserves_of_ops (fun _ _ _ hu => hu) (fun i _ hu => after_liveEntriesWritten i hu) hs

end Sys2Proof.Machine
end

section
/-! What the operations and steps do to the mode, the burst, T and the origin times. -/

namespace Sys2Proof.Machine

open Sys2Proof Sys2Proof.Safety

/-! ## Bursts -/

/-- A state is in one mode only. -/
theorem mode_exclusive {s : State} {p : Prop} (hr : s.mode = .receive) (htx : s.mode = .transmit) : p :=
  nomatch hr.symm.trans htx

/-- NSEG fits the 16 bits of `tx_nseg` (43_transmit.md R191, 10_state.md R37). -/
theorem nseg_toNat (len : FrameLen) : (BitVec.ofNat 16 (nseg len)).toNat = nseg len := by cases len <;> rfl

theorem burstState_receive {s : State} (h : s.mode = .receive) : BurstState s ↔
    s.txPkt = Packet.zero ∧ s.txNseg = 0 ∧ s.txSeg = 0 ∧ s.txDeadline = 0 := by
  rw [BurstState, h]

theorem burstState_transmit {s : State} (h : s.mode = .transmit) : BurstState s ↔
    s.txNseg.toNat = nseg s.txPkt.len ∧ s.txSeg.toNat ≤ s.txNseg.toNat := by
  rw [BurstState, h]

theorem SameBurst.burstState {s t : State} (ht : SameBurst s t) (h : BurstState s) : BurstState t := by
  rwa [BurstState, ht.mode, ht.txPkt, ht.txNseg, ht.txSeg, ht.txDeadline]

theorem after_burstState (i : Instr) {s : State} (h : BurstState s) : BurstState (after i s) := by
  apply after_burst_induction i s
  case same => exact fun t ht => ht.burstState h
  case start => exact fun _ _ _ => (burstState_transmit rfl).2 ⟨nseg_toNat _, Nat.zero_le _⟩
  case segment =>
    intro _ hmode hlt
    obtain ⟨hnseg, -⟩ := (burstState_transmit hmode).1 h
    refine (burstState_transmit (s := driveSegment s) hmode).2 ⟨hnseg, ?_⟩
    show (s.txSeg + 1).toNat ≤ s.txNseg.toNat
    bv_omega
  case burstEnd => exact fun _ _ => (burstState_receive rfl).2 ⟨rfl, rfl, rfl, rfl⟩
  case reset => exact fun _ _ => (burstState_receive rfl).2 ⟨rfl, rfl, rfl, rfl⟩

/-- Settles O14: the burst state does not look at T or the agenda, and every operation keeps it. -/
theorem stepKeepsTheBurstState : Obligations.StepKeepsTheBurstState := fun _ _ =>
  step_preserves_of_ops (P := BurstState) (fun _ _ _ hu => hu) fun i _ hu => after_burstState i hu

/-- Settles O20: a burst start is TX_TICK's and a burst end TX_END's; RESET runs in Receive mode only. -/
theorem onlyTickAndEndSwitchTheMode : Obligations.OnlyTickAndEndSwitchTheMode := by
  intro i s t h
  rw [exec_next h, ← and_assoc]
  refine ⟨?_, after_timeUs i s⟩
  apply after_burst_induction (P := fun t => (s.mode = .receive → t.mode = .transmit → i = .txTick)
    ∧ (s.mode = .transmit → t.mode = .receive → i = .txEnd)) i s
  case same =>
    intro t ht
    rw [ht.mode]
    exact ⟨mode_exclusive, fun htx hr => mode_exclusive hr htx⟩
  case start => exact fun hi hr _ => ⟨fun _ _ => hi, mode_exclusive hr⟩
  case segment => exact fun _ htx _ => ⟨fun hr => mode_exclusive hr htx, fun _ hr => mode_exclusive hr htx⟩
  case burstEnd => exact fun hi htx => ⟨fun hr => mode_exclusive hr htx, fun _ _ => hi⟩
  case reset => exact fun _ hr => ⟨fun _ => mode_exclusive (s := resetBlock s) rfl, mode_exclusive hr⟩

/-- Settles O49: a burst start passes the throttle test, and only a burst end and RESET write what it reads. -/
theorem throttleSeparatesBursts : Obligations.ThrottleSeparatesBursts := by
  intro i s t h
  rw [exec_next h]
  apply after_burst_induction (P := fun t =>
    (s.mode = .receive → t.mode = .transmit → s.txEver = true → s.lastTxEndUs.toNat + 10000000 ≤ s.timeUs.toNat)
    ∧ (s.mode = .transmit → t.mode = .receive → t.txEver = true ∧ t.lastTxEndUs = s.timeUs)
    ∧ (i ≠ .txEnd → i ≠ .reset → t.txEver = s.txEver ∧ t.lastTxEndUs = s.lastTxEndUs)) i s
  case same =>
    intro t ht
    rw [ht.mode]
    exact ⟨mode_exclusive, fun htx hr => mode_exclusive hr htx,
      fun _ _ => ⟨ht.txEver, ht.lastTxEndUs⟩⟩
  case start =>
    intro _ hr hok
    obtain ⟨-, -, -, hthrottle, -⟩ := (startOk_iff s).1 hok
    refine ⟨fun _ _ hever => ?_, mode_exclusive hr, fun _ _ => ⟨rfl, rfl⟩⟩
    exact hthrottle.resolve_left (by rw [hever]; decide)
  case segment =>
    exact fun _ htx _ => ⟨fun hr => mode_exclusive hr htx, fun _ hr => mode_exclusive hr htx,
      fun _ _ => ⟨rfl, rfl⟩⟩
  case burstEnd =>
    exact fun hi htx => ⟨fun hr => mode_exclusive hr htx, fun _ _ => ⟨rfl, rfl⟩, fun hne => absurd hi hne⟩
  case reset =>
    exact fun hi hr => ⟨fun _ => mode_exclusive (s := resetBlock s) rfl, mode_exclusive hr, fun _ hne => absurd hi hne⟩

/-! ## TIME -/

/-- TIME never turns T back, and in Transmit mode it stops at `tx_deadline` (43_transmit.md R205). -/
theorem advanceTime_bounds (n : Nat) (s : State) :
    s.timeUs.toNat ≤ (advanceTime n s).timeUs.toNat
    ∧ (s.mode = .transmit → s.timeUs.toNat ≤ s.txDeadline.toNat →
        (advanceTime n s).timeUs.toNat ≤ s.txDeadline.toNat)
    ∧ (s.mode = .transmit → s.timeUs = s.txDeadline → (advanceTime n s).timeUs = s.timeUs) := by
  rcases advanceTime_cases n s with ⟨hmay, -, ht⟩ | ⟨-, h⟩
  · obtain ⟨hpos, -, hdeadline⟩ := (mayAdvance_iff n s).1 hmay
    rw [ht]
    refine ⟨Nat.le_add_right _ _, fun htx _ => hdeadline htx, fun htx heq => ?_⟩
    have hle := hdeadline htx
    rw [heq] at hle
    omega
  · rw [h]; exact ⟨le_rfl, fun _ hle => hle, fun _ _ => rfl⟩

/-- Settles O28: an operation leaves T alone, and TIME keeps the bounds. -/
theorem timeStopsAtTheDeadline : Obligations.TimeStopsAtTheDeadline := by
  intro s t h
  have held (hT : t.timeUs = s.timeUs) : s.timeUs.toNat ≤ t.timeUs.toNat
      ∧ (s.mode = .transmit → s.timeUs.toNat ≤ s.txDeadline.toNat → t.timeUs.toNat ≤ s.txDeadline.toNat)
      ∧ (s.mode = .transmit → s.timeUs = s.txDeadline → t.timeUs = s.timeUs) := by
    rw [hT]; exact ⟨le_rfl, fun _ hle => hle, fun _ _ => rfl⟩
  obtain ⟨todo, u, rfl, rfl | ⟨i, hi⟩ | ⟨n, rfl⟩⟩ := step_cases h
  · exact held rfl
  · exact held (by rw [exec_next hi, after_timeUs])
  · exact advanceTime_bounds n { s with agenda := todo }

/-- Settles O27: the premises are TIME's own condition for an advance. -/
theorem waitAdvancesTime : Obligations.WaitAdvancesTime := by
  intro s n rest hagenda hpos hrange hdeadline
  have hmay : mayAdvance n { s with agenda := rest } = true := (mayAdvance_iff _ _).2 ⟨hpos, hrange, hdeadline⟩
  rw [step, takeStep, hagenda]
  dsimp only
  rw [advanceTime, if_pos hmay]

/-! ## The output history -/

/-- Settles O15: a step emits what its operation does, which is at most one event, stamped with T. -/
theorem historyOnlyGrows : Obligations.HistoryOnlyGrows := by
  intro s t h
  have grows (hst : EmitsAtMostOne s t) : ∃ new : List Stamped, t.history = s.history ++ new
      ∧ (∀ e ∈ new, e.stamp = s.timeUs) ∧ new.countP (fun e => isDiag e.event) ≤ 1 := by
    rcases hst with hsame | ⟨e, hone, -⟩
    · exact ⟨[], by rw [hsame, List.append_nil], nofun, Nat.zero_le _⟩
    · refine ⟨_, hone, fun e' he' => ?_, List.countP_le_length⟩
      rw [List.mem_singleton.1 he']
  obtain ⟨todo, u, rfl, rfl | ⟨i, hi⟩ | ⟨n, rfl⟩⟩ := step_cases h
  · exact grows (.inl rfl)
  · rw [exec_next hi] at grows ⊢
    exact grows (after_emits i { s with agenda := todo })
  · exact grows (.inl (by rw [advanceTime_frame]))

/-- Settles O16: the one event an operation may emit is valid if it is a Frame event. -/
theorem everyFrameEventIsValid : Obligations.EveryFrameEventIsValid := by
  intro i s t h hs e he
  rw [exec_next h] at he
  rcases after_emits i s with hsame | ⟨ev, hone, hok⟩
  · rw [hsame] at he; exact hs e he
  · rw [hone, List.mem_append, List.mem_singleton] at he
    rcases he with hold | rfl
    · exact hs e hold
    · exact hok

/-! ## The controller -/

theorem endFrame_keeps_ctrlKnown (trig : Trigger) {s : State} (h : s.ctrlKnown = true) :
    (endFrame trig s).ctrlKnown = true := by
  obtain ⟨e, ck, lc, lh, he, hck, -⟩ := endFrame_form trig s
  rw [he]; exact hck h

theorem runSymbol_keeps_ctrlKnown (sym : Symbol) {s : State} (h : s.ctrlKnown = true) :
    (runSymbol sym s).ctrlKnown = true := by
  apply runSymbol_induction (P := fun t => t.ctrlKnown = true) sym s
  case unchanged => exact h
  case append =>
    intro b _
    rcases appendBit_cases b s with ⟨-, he⟩ | ⟨-, -, he⟩ | ⟨-, -, he⟩ <;> rw [he] <;> exact h
  case frameEnd => exact fun _ => endFrame_keeps_ctrlKnown .idle h
  case discard => exact fun _ _ => h
  case start => exact fun _ => h
  case restart => exact fun _ => endFrame_keeps_ctrlKnown .preamble h

/-- A known controller stays known but for RESET (10_state.md R33). -/
theorem after_keeps_ctrlKnown {i : Instr} (hi : i ≠ .reset) {s : State} (h : s.ctrlKnown = true) :
    (after i s).ctrlKnown = true := by
  apply after_induction (P := fun t => t.ctrlKnown = true) i s
  case held => exact h
  case edge => intro l _ _; rw [captureEdge_frame]; exact h
  case pop => exact fun _ _ sym => runSymbol_keeps_ctrlKnown sym (s := pqDrop s) h
  case idleEnd => exact fun _ _ => endFrame_keeps_ctrlKnown .synthIdle h
  case enqueue =>
    intro len pkt _
    rcases enqueuePacket_cases len pkt s with ⟨-, he⟩ | ⟨-, he⟩ <;> rw [he]
    · exact h
    · rw [txqPush_frame]; exact h
  case tick => intro _ _; rw [schedulerTick_frame]; exact h
  case segment => intros; exact h
  case burstEnd => intros; exact h
  case read => intros; exact h
  case write => intros; exact h
  case reset => exact fun hreset => absurd hreset hi
  case illegal => intros; exact h
  case symbol => exact fun sym _ => runSymbol_keeps_ctrlKnown sym h

/-- Settles O19: every operation but RESET keeps a known controller known. -/
theorem onlyResetForgetsTheController : Obligations.OnlyResetForgetsTheController := by
  intro i s t h hknown hforgot
  by_contra hi
  rw [exec_next h, after_keeps_ctrlKnown hi hknown] at hforgot
  cases hforgot

end Sys2Proof.Machine
end

section
/-! What RXW and TXW write (60_exceptions.md R264), and that no operation's outcome depends on `tx_notify` (43_transmit.md
R195). -/

namespace Sys2Proof.Machine

open Sys2Proof Sys2Proof.Safety

/-! ## What the workers write -/

/-- `t` differs from `s` only in what RXW may write: the ring's head and count, the framer, the origin times and the output. -/
def RxwWrites (s t : State) : Prop := t = { s with
  pqHead := t.pqHead, pqCount := t.pqCount
  frBuf := t.frBuf, frLen := t.frLen, frCur := t.frCur, frBidx := t.frBidx, frSrc := t.frSrc
  frStarted := t.frStarted, frFinalized := t.frFinalized, frTimeMs := t.frTimeMs
  ctrlKnown := t.ctrlKnown, lastCtrlMs := t.lastCtrlMs, lastHeaterMs := t.lastHeaterMs
  history := t.history }

/-- `t` differs from `s` only in what TXW may write: the transmit state, the queue's head and count, the framer, the capture
state and the output. -/
def TxwWrites (s t : State) : Prop := t = { s with
  mode := t.mode, busDrive := t.busDrive, txqHead := t.txqHead, txqCount := t.txqCount
  txNotify := t.txNotify, txPkt := t.txPkt, txNseg := t.txNseg, txSeg := t.txSeg
  txDeadline := t.txDeadline, txEver := t.txEver, lastTxEndUs := t.lastTxEndUs
  frBuf := t.frBuf, frLen := t.frLen, frCur := t.frCur, frBidx := t.frBidx, frSrc := t.frSrc
  frStarted := t.frStarted, frFinalized := t.frFinalized, frTimeMs := t.frTimeMs
  pendValid := t.pendValid, pendDur := t.pendDur, lastEdge := t.lastEdge
  history := t.history }

theorem runSymbol_rxwWrites (sym : Symbol) (s : State) : RxwWrites s (runSymbol sym s) := by
  rw [runSymbol_frame]; rfl

theorem endFrame_rxwWrites (trig : Trigger) (s : State) : RxwWrites s (endFrame trig s) := by
  obtain ⟨e, ck, lc, lh, h, -⟩ := endFrame_form trig s
  rw [h]; rfl

theorem popRecord_rxwWrites (s : State) : RxwWrites s (popRecord s) := by
  rw [popRecord, runSymbol_frame]; rfl

theorem idleCheck_rxwWrites (s : State) : RxwWrites s (idleCheck s) := by
  rw [idleCheck, symIdle]
  split
  · split
    · exact endFrame_rxwWrites .synthIdle s
    · rfl
  · rfl

theorem schedulerTick_txwWrites (s : State) : TxwWrites s (schedulerTick s) := by
  rw [schedulerTick_frame]; rfl

theorem after_rxwWrites {i : Instr} (h : i.agent = .rxw) (s : State) : RxwWrites s (after i s) := by
  cases i with
  | rxPop =>
    rw [after]; split
    · exact popRecord_rxwWrites s
    · rfl
  | rxIdleCheck =>
    rw [after]; split
    · exact idleCheck_rxwWrites s
    · rfl
  | invalid => exact runSymbol_rxwWrites .invalid s
  | bit0 => exact runSymbol_rxwWrites .bit0 s
  | bit1 => exact runSymbol_rxwWrites .bit1 s
  | preamble => exact runSymbol_rxwWrites .preamble s
  | idle => exact runSymbol_rxwWrites .idle s
  | edge | txEnqueue | txTick | txSegment | txEnd | regRead | regWrite | reset | illegal => cases h

theorem after_txwWrites {i : Instr} (h : i.agent = .txw) (s : State) : TxwWrites s (after i s) := by
  cases i with
  | txTick =>
    rw [after]; split
    · exact schedulerTick_txwWrites s
    · rfl
  | txSegment => rw [after]; split <;> rfl
  | txEnd => rw [after]; split <;> rfl
  | edge | rxPop | rxIdleCheck | txEnqueue | regRead | regWrite | reset | illegal | invalid | bit0 | bit1 | preamble
  | idle => cases h

/-- Settles O24, operation by operation of each worker. -/
theorem workersWriteOnlyTheirState : Obligations.WorkersWriteOnlyTheirState := by
  intro i s t h
  rw [exec_next h]
  exact ⟨fun hrxw => after_rxwWrites hrxw s, fun htxw => after_txwWrites htxw s⟩

/-! ## No operation reads `tx_notify` -/

/-- The state with `tx_notify` set to `b`. -/
def withNotify (b : Bool) (s : State) : State := { s with txNotify := b }

/-- What `f` leaves does not depend on `tx_notify`, but for `tx_notify` itself. -/
def IgnoresNotify (f : State → State) : Prop := ∀ b s, ∃ n, f (withNotify b s) = withNotify n (f s)

/-- An operation that keeps `tx_notify` and does not look at it. -/
theorem IgnoresNotify.of_keeps {f : State → State} (h : ∀ b s, f (withNotify b s) = withNotify b (f s)) :
    IgnoresNotify f := fun b s => ⟨b, h b s⟩

/-- An operation that writes `tx_notify` and does not look at it. -/
theorem IgnoresNotify.of_writes {f : State → State} (h : ∀ b s, f (withNotify b s) = f s) : IgnoresNotify f :=
  fun b s => ⟨(f s).txNotify, h b s⟩

theorem ignoresNotify_id : IgnoresNotify fun s => s := .of_keeps fun _ _ => rfl

theorem IgnoresNotify.comp {f g : State → State} (hf : IgnoresNotify f) (hg : IgnoresNotify g) :
    IgnoresNotify fun s => f (g s) := by
  intro b s
  obtain ⟨m, hm⟩ := hg b s
  obtain ⟨n, hn⟩ := hf m (g s)
  exact ⟨n, (congrArg f hm).trans hn⟩

/-- A choice that does not look at `tx_notify`. -/
theorem IgnoresNotify.ite (c : State → Prop) [DecidablePred c] {f g : State → State} (hf : IgnoresNotify f)
    (hg : IgnoresNotify g) (hc : ∀ b s, c (withNotify b s) = c s) : IgnoresNotify fun s => if c s then f s else g s := by
  intro b s
  have hcs := hc b s
  by_cases h : c s
  · simpa only [hcs, if_pos h] using hf b s
  · simpa only [hcs, if_neg h] using hg b s

theorem ignoresNotify_pqPush (rec : PulseRecord) : IgnoresNotify (pqPush rec) :=
  .comp (f := pqStore rec) (.of_keeps fun _ _ => rfl)
    (.ite (fun s => s.pqCount = Config.pqCap) (f := pqDrop) (.of_keeps fun _ _ => rfl) ignoresNotify_id fun _ _ => rfl)

theorem ignoresNotify_pairHigh (d : Word) : IgnoresNotify (pairHigh d) := by
  refine .ite (fun s => s.pendValid = true) (fun b s => ?_) ignoresNotify_id fun _ _ => rfl
  obtain ⟨n, hn⟩ := ignoresNotify_pqPush ⟨.low, s.pendDur, .high, d⟩ b s
  exact ⟨n, congrArg (fun u : State => { u with pendValid := false, pendDur := 0 }) hn⟩

theorem ignoresNotify_captureEdge (l : Level) : IgnoresNotify (captureEdge l) := by
  intro b s
  cases l with
  | high => exact ⟨b, rfl⟩
  | low => exact ignoresNotify_pairHigh (durSinceEdge s) b { s with lastEdge := s.timeUs.setWidth 32 }

theorem ignoresNotify_endFrame (trig : Trigger) : IgnoresNotify (endFrame trig) := by
  refine .of_keeps fun b s => ?_
  have hlen : (withNotify b s).frLen = s.frLen := rfl
  have hbuf : (withNotify b s).frBuf = s.frBuf := rfl
  cases hl : frameLenOf s.frLen with
  | none => simp only [endFrame, hlen, hl]; rfl
  | some len =>
    cases hv : validate s.frBuf.toList len with
    | none => simp only [endFrame, hlen, hbuf, hl, hv]; rfl
    | some v => simp only [endFrame, hlen, hbuf, hl, hv]; cases v <;> rfl

theorem ignoresNotify_appendBit (bit : Bool) : IgnoresNotify (appendBit bit) :=
  .ite (fun s => s.frBidx.toNat < 7) (.of_keeps fun _ _ => rfl)
    (.ite (fun s => s.frLen.toNat = Config.frMaxLen) (.of_keeps fun _ _ => rfl) (.of_keeps fun _ _ => rfl) fun _ _ => rfl)
    fun _ _ => rfl

/-- What an operation does while a frame is being received, and otherwise not. -/
theorem ignoresNotify_ifStarted {f : State → State} (hf : IgnoresNotify f) :
    IgnoresNotify fun s => if s.frStarted then f s else s :=
  .ite (fun s => s.frStarted = true) hf ignoresNotify_id fun _ _ => rfl

theorem ignoresNotify_runSymbol (sym : Symbol) : IgnoresNotify (runSymbol sym) := by
  cases sym with
  | invalid =>
    exact .ite (fun s => s.frStarted = true ∧ Config.minInvalidResetLen ≤ s.frLen.toNat) (.of_keeps fun _ _ => rfl)
      ignoresNotify_id fun _ _ => rfl
  | bit0 => exact ignoresNotify_ifStarted (ignoresNotify_appendBit false)
  | bit1 => exact ignoresNotify_ifStarted (ignoresNotify_appendBit true)
  | preamble =>
    exact .comp (f := frStart) (.of_keeps fun _ _ => rfl) (ignoresNotify_ifStarted (ignoresNotify_endFrame .preamble))
  | idle => exact ignoresNotify_ifStarted (ignoresNotify_endFrame .idle)

theorem ignoresNotify_popRecord : IgnoresNotify popRecord := fun b s => ignoresNotify_runSymbol _ b (pqDrop s)

theorem ignoresNotify_idleCheck : IgnoresNotify idleCheck :=
  .ite (fun s => s.frStarted = true ∧ Config.rxIdleUs ≤ (durSinceEdge s).toNat)
    (ignoresNotify_ifStarted (ignoresNotify_endFrame .synthIdle)) ignoresNotify_id fun _ _ => rfl

theorem ignoresNotify_txqPush (pkt : Packet) : IgnoresNotify (txqPush pkt) :=
  .comp (f := txqStore pkt) (.of_writes fun _ _ => rfl)
    (.ite (fun s => s.txqCount = Config.txqCap) (.of_keeps fun _ _ => rfl) ignoresNotify_id fun _ _ => rfl)

/-- An operation with an enabling condition (00_scope.md R13), which never looks at `tx_notify`. -/
theorem ignoresNotify_ifEnabled (i : Instr) {f : State → State} (hf : IgnoresNotify f) :
    IgnoresNotify fun s => if enabled i s then f s else s := by
  refine .ite (fun s => enabled i s = true) hf ignoresNotify_id fun b s => ?_
  cases i <;> rfl

/-- Every operation leaves the same state up to `tx_notify`, whatever `tx_notify` was. -/
theorem ignoresNotify_after (i : Instr) : IgnoresNotify (after i) := by
  cases i with
  | edge l => exact .ite (fun s => s.mode = .transmit) ignoresNotify_id (ignoresNotify_captureEdge l) fun _ _ => rfl
  | rxPop => exact ignoresNotify_ifEnabled .rxPop ignoresNotify_popRecord
  | rxIdleCheck => exact ignoresNotify_ifEnabled .rxIdleCheck ignoresNotify_idleCheck
  | txEnqueue len pkt =>
    exact .ite (fun s => s.passive = true) (.of_keeps fun _ _ => rfl) (ignoresNotify_txqPush _) fun _ _ => rfl
  | txTick => exact ignoresNotify_ifEnabled .txTick (f := schedulerTick) (.of_writes fun _ _ => rfl)
  | txSegment => exact ignoresNotify_ifEnabled .txSegment (f := driveSegment) (.of_keeps fun _ _ => rfl)
  | txEnd => exact ignoresNotify_ifEnabled .txEnd (f := endBurst) (.of_keeps fun _ _ => rfl)
  | regRead r => exact .of_keeps fun _ _ => rfl
  | regWrite r d => exact .ite (fun _ => r = 0) (.of_keeps fun _ _ => rfl) ignoresNotify_id fun _ _ => rfl
  | reset => exact ignoresNotify_ifEnabled .reset (f := resetBlock) (.of_writes fun _ _ => rfl)
  | illegal w => exact .of_keeps fun _ _ => rfl
  | invalid => exact ignoresNotify_runSymbol .invalid
  | bit0 => exact ignoresNotify_runSymbol .bit0
  | bit1 => exact ignoresNotify_runSymbol .bit1
  | preamble => exact ignoresNotify_runSymbol .preamble
  | idle => exact ignoresNotify_runSymbol .idle

/-- Settles O26: no operation's body or enabling condition looks at `tx_notify`. -/
theorem notifyChangesNoOutcome : Obligations.NotifyChangesNoOutcome := by
  intro i s t b h
  obtain ⟨n, hn⟩ := ignoresNotify_after i b s
  refine ⟨n, ?_⟩
  rw [exec_next h, exec_eq]
  exact congrArg _ hn

end Sys2Proof.Machine
end

section
/-! The host's view: the reset values (10_state.md R48), the registers and the fields of STATUS (10_state.md R41–R44). -/

namespace Sys2Proof.Machine

open Sys2Proof Sys2Proof.Safety

/-! ## Reset values -/

/-- `NOW_MS` as a number (00_scope.md R10). -/
theorem nowMs_toNat (s : State) : (nowMs s).toNat = s.timeUs.toNat / 1000 := by
  rw [nowMs, BitVec.toNat_udiv]; rfl

theorem reset_resetValues : ResetValues 0 State.reset := by
  simp [ResetValues, State.reset]

/-- RESET puts every element at its reset value for the current T (44_host.md R236). -/
theorem resetBlock_resetValues (s : State) : ResetValues s.timeUs (resetBlock s) := by
  simp [ResetValues, nowMs_toNat]

/-- RESET in Receive mode runs (44_host.md R236). -/
theorem exec_reset {s : State} (h : s.mode = .receive) : exec .reset s = .next (resetBlock s) := by
  rw [exec_eq, after, if_pos (by rw [resetEnabled, h]; rfl)]

/-- Settles O7: RESET in Receive mode is enabled and writes the table of R48. -/
theorem resetGivesTheResetValues : Obligations.ResetGivesTheResetValues :=
  ⟨⟨reset_resetValues, rfl, rfl⟩,
    fun s h => ⟨resetBlock s, exec_reset h, resetBlock_resetValues s, rfl, rfl, rfl⟩⟩

/-! ## Registers -/

/-- The reserved registers read 0 (44_host.md R231). -/
theorem registerValue_reserved {ridx : BitVec 4} (h : 8 ≤ ridx.toNat) (s : State) : registerValue ridx s = 0 := by
  rw [registerValue]
  split
  case h_9 => rfl
  all_goals omega

/-- Settles O56: the value is `registerValue`'s, read row by row. -/
theorem registerReads : Obligations.RegisterReads := by
  intro ridx s
  refine ⟨registerValue ridx s, exec_eq _ s, ?passive, ?status, ?pqCount, ?ctrl, ?heater, ?txEnd, ?now, ?cur,
    fun h => registerValue_reserved h s⟩ <;> rintro rfl
  case passive => show bitWord s.passive = _; cases s.passive <;> rfl
  case status => rfl
  case pqCount => exact BitVec.toNat_ofNat _ _
  case ctrl => exact BitVec.toNat_setWidth _ _
  case heater => exact BitVec.toNat_setWidth _ _
  case txEnd => exact (BitVec.toNat_setWidth _ _).trans (by rw [BitVec.toNat_udiv]; rfl)
  case now => exact (BitVec.toNat_setWidth _ _).trans (by rw [nowMs_toNat])
  case cur => exact BitVec.toNat_setWidth_of_le (by decide)

/-- Bit 0 as a number (44_host.md R232). -/
theorem getLsbD_zero_eq (d : Word) : d.getLsbD 0 = decide (d.toNat % 2 = 1) := by
  rw [BitVec.getLsbD, Nat.testBit_zero]

/-- Settles O58, by whether the register is CTRL. -/
theorem registerWrites : Obligations.RegisterWrites := by
  intro ridx d s
  refine ⟨fun h => ?_, fun h => ?_⟩ <;> rw [exec_eq, after, writeRegister]
  · rw [if_pos h, getLsbD_zero_eq]
  · rw [if_neg h]

/-! ## STATUS -/

theorem bitWord_toNat (b : Bool) : (bitWord b).toNat = b.toNat := by cases b <;> rfl

theorem bitWord_lt (b : Bool) : (bitWord b).toNat < 2 ^ 1 := by cases b <;> decide

/-- HEATER_OFFLINE on numbers (10_state.md R47). -/
theorem heaterOffline_eq (s : State) :
    heaterOffline s = decide (s.lastHeaterMs.toNat + 30000 ≤ s.timeUs.toNat / 1000) := by
  have hlimit : ((Config.heaterOfflineMs : Nat) : Int) = 30000 := rfl
  rw [heaterOffline, elapsed, nowMs_toNat, hlimit, decide_eq_decide]
  omega

/-- A field of `n` bits put above the `k` low bits that a word uses adds to it as a number. -/
theorem or_shiftLeft_toNat {w f : Word} {k n : Nat} (hw : w.toNat < 2 ^ k) (hf : f.toNat < 2 ^ n) (hkn : k + n ≤ 32) :
    (w ||| f <<< k).toNat = w.toNat + 2 ^ k * f.toNat ∧ (w ||| f <<< k).toNat < 2 ^ (k + n) := by
  have hsum : w.toNat + 2 ^ k * f.toNat < 2 ^ (k + n) := by
    have := Nat.mul_le_mul_left (2 ^ k) (Nat.succ_le_of_lt hf)
    rw [Nat.mul_succ, ← Nat.pow_add] at this
    omega
  have hword : 2 ^ (k + n) ≤ 2 ^ 32 := Nat.pow_le_pow_right (by decide) hkn
  have hval : (w ||| f <<< k).toNat = w.toNat + 2 ^ k * f.toNat := by
    rw [BitVec.toNat_or, BitVec.toNat_shiftLeft, Nat.shiftLeft_eq, Nat.mul_comm f.toNat,
      Nat.mod_eq_of_lt (by omega), Nat.or_comm, ← Nat.two_pow_add_eq_or_of_lt hw, Nat.add_comm]
  exact ⟨hval, hval ▸ hsum⟩

/-- STATUS as a number: each field at its place (10_state.md R43). -/
theorem statusWord_toNat {s : State} (h : s.txqCount ≤ 8) : (statusWord s).toNat =
    s.mode.bit.toNat + 2 * s.frStarted.toNat + 4 * s.frFinalized.toNat + 8 * s.ctrlKnown.toNat + 16 * s.txEver.toNat
      + 32 * (heaterOffline s).toNat + 64 * s.pendValid.toNat + 256 * s.frLen.toNat + 4096 * s.frBidx.toNat
      + 65536 * s.frSrc.code.toNat + 262144 * s.txqCount := by
  have hlen : (s.frLen.setWidth 32).toNat = s.frLen.toNat := BitVec.toNat_setWidth_of_le (by decide)
  have hbidx : (s.frBidx.setWidth 32).toNat = s.frBidx.toNat := BitVec.toNat_setWidth_of_le (by decide)
  have hsrc : (s.frSrc.code.setWidth 32).toNat = s.frSrc.code.toNat := BitVec.toNat_setWidth_of_le (by decide)
  have hcount : (BitVec.ofNat 32 s.txqCount).toNat = s.txqCount :=
    (BitVec.toNat_ofNat _ _).trans (Nat.mod_eq_of_lt (by omega))
  have below0 := bitWord_lt s.mode.bit
  obtain ⟨e1, below1⟩ := or_shiftLeft_toNat below0 (bitWord_lt s.frStarted) (by decide)
  obtain ⟨e2, below2⟩ := or_shiftLeft_toNat below1 (bitWord_lt s.frFinalized) (by decide)
  obtain ⟨e3, below3⟩ := or_shiftLeft_toNat below2 (bitWord_lt s.ctrlKnown) (by decide)
  obtain ⟨e4, below4⟩ := or_shiftLeft_toNat below3 (bitWord_lt s.txEver) (by decide)
  obtain ⟨e5, below5⟩ := or_shiftLeft_toNat below4 (bitWord_lt (heaterOffline s)) (by decide)
  obtain ⟨e6, below6⟩ := or_shiftLeft_toNat below5 (bitWord_lt s.pendValid) (by decide)
  obtain ⟨e8, below8⟩ := or_shiftLeft_toNat (k := 8) (n := 4) (below6.trans (by decide))
    (hlen.trans_lt s.frLen.isLt) (by decide)
  obtain ⟨e12, below12⟩ := or_shiftLeft_toNat (n := 3) below8 (hbidx.trans_lt s.frBidx.isLt) (by decide)
  obtain ⟨e16, below16⟩ := or_shiftLeft_toNat (k := 16) (n := 2) (below12.trans (by decide))
    (hsrc.trans_lt s.frSrc.code.isLt) (by decide)
  obtain ⟨e18, -⟩ := or_shiftLeft_toNat (n := 4) below16 (f := BitVec.ofNat 32 s.txqCount) (by omega) (by decide)
  refine e18.trans ?_
  rw [e16, e12, e8, e6, e5, e4, e3, e2, e1]
  simp only [bitWord_toNat, hlen, hbidx, hsrc, hcount]
  omega

/-- A bit of a word from its number. -/
theorem getLsbD_eq_of_toNat {w : Word} {k : Nat} {b : Bool} (h : w.toNat / 2 ^ k % 2 = b.toNat) : w.getLsbD k = b := by
  rw [BitVec.getLsbD, Nat.testBit_eq_decide_div_mod_eq, h]
  cases b <;> rfl

/-- A field of a word from its number. -/
theorem extractLsb'_toNat_eq (w : Word) (start len : Nat) :
    (w.extractLsb' start len).toNat = w.toNat / 2 ^ start % 2 ^ len := by
  rw [BitVec.extractLsb'_toNat, Nat.shiftRight_eq_div_pow]

theorem BusMode.bit_eq (m : BusMode) : m.bit = decide (m = .transmit) := by cases m <;> rfl

/-- Settles O57: each bit and field is read off STATUS as a number. -/
theorem statusFields : Obligations.StatusFields := by
  intro s h
  have hw := statusWord_toNat h
  have hmode := s.mode.bit.toNat_lt
  have hstarted := s.frStarted.toNat_lt
  have hfinalized := s.frFinalized.toNat_lt
  have hknown := s.ctrlKnown.toNat_lt
  have hever := s.txEver.toNat_lt
  have hoffline := (heaterOffline s).toNat_lt
  have hpend := s.pendValid.toNat_lt
  have hlen := s.frLen.isLt
  have hbidx := s.frBidx.isLt
  have hsrc := s.frSrc.code.isLt
  have hfalse : false.toNat = 0 := rfl
  have hzero : (0 : BitVec 10).toNat = 0 := rfl
  dsimp only
  rw [← BusMode.bit_eq, ← heaterOffline_eq]
  refine ⟨?_, ?_, ?_, ?_, ?_, ?_, ?_, ?_, BitVec.eq_of_toNat_eq ?frLen, BitVec.eq_of_toNat_eq ?frBidx, ?_, ?frSrc,
    ?txqCount, BitVec.eq_of_toNat_eq ?reserved⟩
  case frLen | frBidx | txqCount => rw [extractLsb'_toNat_eq]; omega
  case reserved => rw [extractLsb'_toNat_eq, hzero]; omega
  case frSrc =>
    trans s.frSrc.code.toNat
    · rw [extractLsb'_toNat_eq]; omega
    · cases s.frSrc <;> rfl
  all_goals exact getLsbD_eq_of_toNat (by omega)

end Sys2Proof.Machine
end

section
/-! The memories of the block (20_memory.md): the order of its steps (R72), the pulse ring's two ends (R64, R74), the bit order
of a received byte (R62), and the outbound queue's two ends (R68, R69). -/

namespace Sys2Proof.Machine

open Sys2Proof Sys2Proof.Safety

/-! ## The order of steps -/

/-- A raw word that decodes runs the operation it decodes to. -/
theorem runRaw_of_decode {op : RawOp} {i : Instr} (h : decode op = .ok i) (s : State) : runRaw op s = exec i s := by
  rw [runRaw, h]

/-- A step with an operation offered first runs it on what is behind it (20_memory.md R72). -/
theorem step_of_offer {s : State} {op : RawOp} {rest : List AgendaItem} (h : s.agenda = .offer op :: rest) :
    step s = runRaw op { s with agenda := rest } := by
  rw [step, takeStep, h]

/-- A table word that decodes to `i` is a raw operation that decodes to `i`. -/
theorem rawOfTableWord_of_decodeTableWord {nbits w : Nat} {i : Instr} (h : decodeTableWord nbits w = some i) :
    ∃ op, rawOfTableWord nbits w = some op ∧ decode op = .ok i := by
  obtain ⟨op, hop, hi⟩ := Option.bind_eq_some_iff.1 h
  refine ⟨op, hop, ?_⟩
  split at hi
  · rename_i j hj
    rw [hj, Option.some.inj hi]
  · cases hi

/-- The step after a raw operation has been offered first runs it on the state before the offer. -/
theorem step_offerFirst (op : RawOp) (s : State) : step (offerFirst (some op) s) = runRaw op s :=
  step_of_offer rfl

/-- Settles O6: the offer is taken from the agenda, whether it stood there or `withFetchWord` placed it. -/
theorem stepRunsTheOfferedOperation : Obligations.StepRunsTheOfferedOperation := by
  refine ⟨fun s op rest i hagenda hdecode => ?_, fun s nbits w i h => ?_⟩
  · rw [step_of_offer hagenda, runRaw_of_decode hdecode]
  · obtain ⟨op, hop, hdecode⟩ := rawOfTableWord_of_decodeTableWord h
    rw [State.withFetchWord, hop, step_offerFirst, runRaw_of_decode hdecode]

/-! ## The producer of the pulse ring in Transmit mode -/

/-- In Transmit mode an EDGE is ignored (40_capture.md R114). -/
theorem exec_edge_of_transmit {s : State} (h : s.mode = .transmit) (l : Level) : exec (.edge l) s = .next s := by
  rw [exec_eq, after, if_pos h]

/-- From `s` to `t` the ring gets no record: its storage is the same, and its count does not rise. -/
def NoRecordAdded (s t : State) : Prop := t.pqBuf = s.pqBuf ∧ t.pqCount ≤ s.pqCount

/-- `t` has the capture state of `s` (10_state.md R23, R25). -/
def SameCapture (s t : State) : Prop :=
  t.lastEdge = s.lastEdge ∧ t.pendValid = s.pendValid ∧ t.pendDur = s.pendDur

/-- A symbol writes neither the ring nor the capture state. -/
theorem runSymbol_quiet (sym : Symbol) (s : State) :
    NoRecordAdded s (runSymbol sym s) ∧ SameCapture s (runSymbol sym s) := by
  rw [runSymbol_frame]; exact ⟨⟨rfl, le_rfl⟩, rfl, rfl, rfl⟩

/-- TX_ENQUEUE writes neither the ring nor the capture state. -/
theorem enqueuePacket_quiet (len : FrameLen) (pkt : Bytes12) (s : State) :
    NoRecordAdded s (enqueuePacket len pkt s) ∧ SameCapture s (enqueuePacket len pkt s) := by
  rcases enqueuePacket_cases len pkt s with ⟨-, h⟩ | ⟨-, h⟩ <;> rw [h]
  · exact ⟨⟨rfl, le_rfl⟩, rfl, rfl, rfl⟩
  · rw [txqPush_frame]; exact ⟨⟨rfl, le_rfl⟩, rfl, rfl, rfl⟩

/-- In Transmit mode only RX_POP touches the ring, and only TX_END re-arms capture (20_memory.md R74, 43_transmit.md R210):
an EDGE is ignored, and TX_TICK and RESET are held. -/
theorem after_quiet_of_transmit (i : Instr) {s : State} (htx : s.mode = .transmit) :
    NoRecordAdded s (after i s) ∧ (i ≠ .txEnd → SameCapture s (after i s)) := by
  have same : NoRecordAdded s s ∧ (i ≠ .txEnd → SameCapture s s) := ⟨⟨rfl, le_rfl⟩, fun _ => ⟨rfl, rfl, rfl⟩⟩
  apply after_induction (P := fun t => NoRecordAdded s t ∧ (i ≠ .txEnd → SameCapture s t)) i s
  case held => exact same
  case edge => exact fun _ _ hr => mode_exclusive hr htx
  case pop =>
    intro _ _ sym
    obtain ⟨⟨hbuf, hcount⟩, hcapture⟩ := runSymbol_quiet sym (pqDrop s)
    exact ⟨⟨hbuf, hcount.trans (Nat.sub_le _ _)⟩, fun _ => hcapture⟩
  case idleEnd => intro _ _; obtain ⟨e, ck, lc, lh, h, -⟩ := endFrame_form .synthIdle s; rw [h]; exact same
  case enqueue => exact fun len pkt _ => (enqueuePacket_quiet len pkt s).imp_right fun h _ => h
  case tick => exact fun _ hr => mode_exclusive hr htx
  case segment => intros; exact same
  case burstEnd => exact fun hi _ _ _ => ⟨⟨rfl, le_rfl⟩, fun hne => absurd hi hne⟩
  case read => intros; exact same
  case write => intros; exact same
  case reset => exact fun _ hr => mode_exclusive hr htx
  case illegal => intros; exact same
  case symbol => exact fun sym _ => (runSymbol_quiet sym s).imp_right fun h _ => h

/-- Settles O22: in Transmit mode CAP is silent, and no other operation adds a record or moves the capture state. -/
theorem ownBurstIsNotReceived : Obligations.OwnBurstIsNotReceived := by
  intro i s t h htx
  rw [exec_next h]
  obtain ⟨⟨hbuf, hcount⟩, hcapture⟩ := after_quiet_of_transmit i htx
  exact ⟨hbuf, hcount, hcapture, exec_edge_of_transmit htx⟩

/-! ## The consumer of the pulse ring -/

/-- Settles O32: RX_POP is the pop of the ring, followed by the symbol of the popped record. -/
theorem rxPopExecutesTheOldestRecord : Obligations.RxPopExecutesTheOldestRecord := fun s hhead hcount =>
  ⟨pqFront s, pqDrop s, popRecord s, pqContents_pop hhead hcount, rfl, exec_rxPop hcount, exec_symbolInstr _ _⟩

/-! ## The bits of a received byte -/

/-- A bit symbol inside a byte is accumulated (41_framer.md R141). -/
theorem exec_bitInstr_inside (b : Bool) {s : State} (hs : s.frStarted = true) (hb : s.frBidx ≠ 7) :
    exec (bitInstr b) s = .next { s with frCur := accumulate b s, frBidx := s.frBidx + 1 } := by
  rw [exec_bitInstr, symBit, if_pos hs]
  rcases appendBit_cases b s with ⟨-, he⟩ | ⟨h7, -⟩ | ⟨h7, -⟩
  · rw [he]
  all_goals exact absurd h7 hb

/-- The last bit symbol of a byte appends the byte where the buffer has room (41_framer.md R141). -/
theorem exec_bitInstr_last (b : Bool) {s : State} (hs : s.frStarted = true) (hb : s.frBidx = 7) (hl : s.frLen ≠ 12) :
    exec (bitInstr b) s = .next { s with
      frBuf := s.frBuf.setIfInBounds s.frLen.toNat (accumulate b s), frLen := s.frLen + 1, frCur := 0, frBidx := 0 } := by
  rw [exec_bitInstr, symBit, if_pos hs]
  rcases appendBit_cases b s with ⟨h7, -⟩ | ⟨-, h12, -⟩ | ⟨-, -, he⟩
  · exact absurd hb h7
  · exact absurd h12 hl
  · rw [he]

/-- Operations executed after others that completed. -/
theorem execAll_append {l m : List Instr} {s t : State} (h : execAll l s = .next t) :
    execAll (l ++ m) s = execAll m t := by
  induction l generalizing s with
  | nil => cases h; rfl
  | cons i l ih =>
    rw [execAll, exec_eq] at h
    rw [List.cons_append, execAll, exec_eq]
    exact ih h

/-- One more operation after others that completed. -/
theorem execAll_concat {l : List Instr} {i : Instr} {s t u : State} (h : execAll l s = .next t)
    (hi : exec i t = .next u) : execAll (l ++ [i]) s = .next u := by
  rw [execAll_append h, execAll, hi]; rfl

/-- The `n` low bits of a byte, the others 0: the partial byte after `n` bits (20_memory.md R62). -/
def lowBits (b : Byte) (n : Nat) : Byte := BitVec.ofNat 8 (b.toNat % 2 ^ n)

theorem getLsbD_lowBits (b : Byte) (n i : Nat) : (lowBits b n).getLsbD i = (decide (i < n) && b.getLsbD i) := by
  rw [lowBits, BitVec.getLsbD_ofNat, Nat.testBit_mod_two_pow]
  by_cases hi : i < 8
  · rw [decide_eq_true hi, Bool.true_and]; rfl
  · rw [decide_eq_false hi, Bool.false_and, BitVec.getLsbD_of_ge b i (Nat.le_of_not_lt hi), Bool.and_false]

theorem lowBits_zero (b : Byte) : lowBits b 0 = 0 := by rw [lowBits, Nat.pow_zero, Nat.mod_one]; rfl

theorem lowBits_eight (b : Byte) : lowBits b 8 = b := by
  rw [lowBits, Nat.mod_eq_of_lt b.isLt, BitVec.ofNat_toNat, BitVec.setWidth_eq]

/-- Bit `n` put above the `n` low bits makes the `n + 1` low bits. -/
theorem lowBits_or_bit (b : Byte) (n : Nat) :
    lowBits b n ||| ((if b.getLsbD n then 1#8 else 0#8) <<< n) = lowBits b (n + 1) := by
  have hbit (i : Nat) : (if b.getLsbD n then 1#8 else 0#8).getLsbD i = (decide (i = 0) && b.getLsbD n) := by
    cases b.getLsbD n <;> simp [BitVec.getLsbD_one]
  apply BitVec.eq_of_getLsbD_eq
  intro i hi
  rw [BitVec.getLsbD_or, BitVec.getLsbD_shiftLeft, hbit, getLsbD_lowBits, getLsbD_lowBits]
  rcases Nat.lt_trichotomy i n with h | rfl | h
  · simp [h, Nat.lt_succ_of_lt h]
  · simp [hi]
  · simp [Nat.lt_asymm h, Nat.sub_ne_zero_of_lt h, Nat.not_lt.2 h]

/-- `s` with the `n` low bits of `b` received as a partial byte. -/
def withPartialByte (b : Byte) (n : Nat) (s : State) : State :=
  { s with frCur := lowBits b n, frBidx := BitVec.ofNat 3 n }

theorem withPartialByte_zero (b : Byte) {s : State} (hb : s.frBidx = 0) (hc : s.frCur = 0) :
    withPartialByte b 0 s = s := by
  obtain ⟨⟩ := s
  subst hb hc
  rw [withPartialByte, lowBits_zero]; rfl

/-- The next bit of a byte completes its `n + 1` low bits. -/
theorem accumulate_withPartialByte (b : Byte) {n : Nat} (hn : n < 8) (s : State) :
    accumulate (b.getLsbD n) (withPartialByte b n s) = lowBits b (n + 1) := by
  have hidx : (withPartialByte b n s).frBidx.toNat = n := Nat.mod_eq_of_lt hn
  rw [accumulate, hidx]
  exact lowBits_or_bit b n

/-- The first seven bits of a byte, least significant first, accumulate (41_framer.md R141). -/
theorem execAll_partialByte (b : Byte) {n : Nat} (hn : n ≤ 7) {s : State} (hs : s.frStarted = true) (hb : s.frBidx = 0)
    (hc : s.frCur = 0) :
    execAll ((List.range n).map fun k => bitInstr (b.getLsbD k)) s = .next (withPartialByte b n s) := by
  induction n with
  | zero => rw [withPartialByte_zero b hb hc]; rfl
  | succ n ih =>
    have hidx : BitVec.ofNat 3 n ≠ 7 := by bv_omega
    have hnext : (withPartialByte b n s).frBidx + 1 = BitVec.ofNat 3 (n + 1) := (BitVec.ofNat_add n 1).symm
    rw [List.range_succ, List.map_append]
    refine execAll_concat (ih (by omega)) ((exec_bitInstr_inside _ (s := withPartialByte b n s) hs hidx).trans ?_)
    rw [accumulate_withPartialByte b (by omega), hnext]; rfl

/-- Settles O35: seven bits accumulate, and the eighth appends the byte. -/
theorem eightBitsMakeTheByte : Obligations.EightBitsMakeTheByte := by
  intro s b hs hb hc hl
  have hlen : s.frLen ≠ 12 := by bv_omega
  rw [List.range_succ, List.map_append]
  refine execAll_concat (execAll_partialByte b le_rfl hs hb hc)
    ((exec_bitInstr_last _ (s := withPartialByte b 7 s) hs rfl hlen).trans ?_)
  rw [accumulate_withPartialByte b (by decide), lowBits_eight, hc, hb]; rfl

/-! ## The outbound queue -/

/-- The bytes TX_ENQUEUE stores (30_encoding.md R92). -/
theorem packetOperand_bytes (len : FrameLen) (pkt : Bytes12) (i : Fin 12) :
    (packetOperand len pkt).bytes[i] = if i.val < len.bytes then pkt[i] else 0 := by
  simp [packetOperand]

/-- Settles O45, by whether the block is passive. -/
theorem enqueueQueuesThePacket : Obligations.EnqueueQueuesThePacket := by
  intro s len pkt
  rw [exec_eq, after]
  rcases enqueuePacket_cases len pkt s with ⟨hp, h⟩ | ⟨hp, h⟩ <;> rw [h]
  · exact ⟨fun _ => rfl, (nomatch hp.symm.trans ·)⟩
  · exact ⟨(nomatch hp.symm.trans ·), fun _ hcount =>
      ⟨_, packetOperand len pkt, rfl, rfl, packetOperand_bytes len pkt, txqContents_push _ hcount,
        txqPush_txqCount _ hcount, txqPush_frame _ s⟩⟩

/-- `tx_nseg` of each length (43_transmit.md R191, R199). -/
theorem ofNat_nseg (len : FrameLen) : BitVec.ofNat 16 (nseg len) = if len = .long then 1568 else 1184 := by
  cases len <;> rfl

/-- A burst start takes the oldest packet from the queue (20_memory.md R69, 43_transmit.md R199). -/
theorem txqContents_burstStart {s : State} (hhead : s.txqHead < Config.txqCap) (hcount : 0 < s.txqCount) :
    txqContents s = txqFront s :: txqContents (burstStart s) := by
  rw [txqContents_pop hhead hcount, txqContents_congr (s := txqDrop s) (t := burstStart s) rfl rfl rfl]

/-- Settles O46, by START_OK on numbers. -/
theorem tickStartsABurstExactlyWhenAllowed : Obligations.TickStartsABurstExactlyWhenAllowed := by
  intro s hmode hhead
  dsimp only
  rw [exec_txTick hmode, ← nowMs_toNat, ← startOk_iff]
  rcases schedulerTick_cases s with ⟨hok, h⟩ | ⟨hok, h⟩ <;> rw [h, hok]
  · obtain ⟨-, hcount, -⟩ := (startOk_iff s).1 hok
    refine ⟨fun _ => ⟨_, txqFront s, rfl, ?_, ?_⟩, fun hno => absurd rfl hno⟩
    · exact txqContents_burstStart (s := { s with txNotify := false }) hhead hcount
    · rw [← ofNat_nseg]; rfl
  · exact ⟨nofun, fun _ => rfl⟩

end Sys2Proof.Machine
end

section
/-! Command words and symbol codes (30_encoding.md R85–R94): what the decoder reads from a word, which words are illegal, and the
windows of the five symbols. -/

namespace Sys2Proof

/-! ## The two one-bit operands -/

@[simp] theorem Level.ofBit_bit (l : Level) : Level.ofBit l.bit = l := by cases l <;> rfl

@[simp] theorem Level.bit_ofBit (b : Bool) : (Level.ofBit b).bit = b := by cases b <;> rfl

@[simp] theorem FrameLen.ofFlag_flag (len : FrameLen) : FrameLen.ofFlag len.flag = len := by cases len <;> rfl

@[simp] theorem FrameLen.flag_ofFlag (b : Bool) : (FrameLen.ofFlag b).flag = b := by cases b <;> rfl

/-! ## What a command word stands for -/

/-- `i` is the operation the word `w` stands for: ILLEGAL with that word where R93 makes it illegal, else an operation of the
table of R90 that is encoded in `w`. -/
def Reads (w : Word) (i : Instr) : Prop :=
  (illegalWord w = true ∧ i = .illegal w)
  ∨ (illegalWord w = false ∧ (∀ v, i ≠ .illegal v) ∧ ∃ (d : Word) (pkt : Bytes12), encode i = .command w d pkt)

/-- A row of the table whose unused fields are 0 exactly where the word is legal reads its operation or ILLEGAL. -/
theorem reads_orIllegal {w : Word} {unusedAreZero : Bool} {i : Instr} (hw : illegalWord w = !unusedAreZero)
    (hi : unusedAreZero = true → (∀ v, i ≠ .illegal v) ∧ ∃ (d : Word) (pkt : Bytes12), encode i = .command w d pkt) :
    Reads w (orIllegal w unusedAreZero i) := by
  cases unusedAreZero with
  | false => exact .inl ⟨hw, rfl⟩
  | true => exact .inr ⟨hw, hi rfl⟩

/-- A row of the table with neither A nor RIDX (30_encoding.md R90). -/
theorem reads_orIllegal_of_plain {opc : BitVec 8} {a : Bool} {ridx : BitVec 4} {i : Instr}
    (hw : illegalWord (commandWord opc a ridx) = !(!a && ridx == 0#4)) (hi : encode i = plainCommand opc false 0)
    (hlegal : ∀ v, i ≠ .illegal v) :
    Reads (commandWord opc a ridx) (orIllegal (commandWord opc a ridx) (!a && ridx == 0#4) i) := by
  refine reads_orIllegal hw fun h => ⟨hlegal, 0, zeroBytes, ?_⟩
  obtain ⟨rfl, rfl⟩ : a = false ∧ ridx = 0#4 := by simpa using h
  exact hi

/-- A word whose reserved bits are not 0 is illegal (30_encoding.md R93). -/
theorem illegalWord_of_rsvField {w : Word} (h : rsvField w ≠ 0#19) : illegalWord w = true := by
  simp [illegalWord, h]

/-- R93 on the fields of a command word. -/
theorem illegalWord_commandWord (opc : BitVec 8) (a : Bool) (ridx : BitVec 4) :
    illegalWord (commandWord opc a ridx) =
      (opc.toNat == 0 || decide (0x0B ≤ opc.toNat) || (a && opc.toNat != 0x01 && opc.toNat != 0x04)
        || (ridx != 0#4 && opc.toNat != 0x08 && opc.toNat != 0x09)) := by
  simp [illegalWord]

/-- The decoder reads every word as the operation it stands for, row by row of 30_encoding.md R90: `h_n` is the row of OPC `n`,
and `h_11` is every other OPC. -/
theorem reads_decodeCommand (w d : Word) (pkt : Bytes12) : Reads w (decodeCommand w d pkt) := by
  by_cases hrsv : rsvField w = 0#19
  case neg => exact .inl ⟨illegalWord_of_rsvField hrsv, by simp [decodeCommand, hrsv]⟩
  rw [← commandWord_fields hrsv]
  generalize opcField w = opc, aField w = a, ridxField w = ridx
  have opc_eq {n : Nat} (h : opc.toNat = n) : opc = BitVec.ofNat 8 n := by rw [← h, BitVec.ofNat_toNat, BitVec.setWidth_eq]
  simp only [decodeCommand, rsvField_commandWord, aField_commandWord, ridxField_commandWord, opcField_commandWord,
    bne_self_eq_false, Bool.false_eq_true, if_false]
  split
  case h_11 =>
    refine .inl ⟨?_, rfl⟩
    simp only [imp_false] at *
    have hopc : opc.toNat = 0 ∨ 0x0B ≤ opc.toNat := by omega
    rcases hopc with h | h <;> simp [illegalWord_commandWord, h]
  all_goals
    rename_i h
    obtain rfl := opc_eq h
  case h_1 =>
    refine reads_orIllegal (by simp [illegalWord_commandWord, bne]) fun h => ⟨nofun, 0, zeroBytes, ?_⟩
    obtain rfl : ridx = 0#4 := by simpa using h
    simp [encode, plainCommand]
  case h_4 =>
    refine reads_orIllegal (by simp [illegalWord_commandWord, bne]) fun h => ⟨nofun, 0, pkt, ?_⟩
    obtain rfl : ridx = 0#4 := by simpa using h
    simp [encode]
  case h_8 =>
    refine reads_orIllegal (by simp [illegalWord_commandWord]) fun h => ⟨nofun, 0, zeroBytes, ?_⟩
    obtain rfl : a = false := by simpa using h
    rfl
  case h_9 =>
    refine reads_orIllegal (by simp [illegalWord_commandWord]) fun h => ⟨nofun, d, zeroBytes, ?_⟩
    obtain rfl : a = false := by simpa using h
    rfl
  case h_2 | h_3 | h_5 | h_6 | h_7 | h_10 =>
    exact reads_orIllegal_of_plain (by simp [illegalWord_commandWord, bne]) rfl nofun

/-- A word decodes to ILLEGAL exactly where R93 makes it illegal. -/
theorem decodeCommand_eq_illegal_iff (w d : Word) (pkt : Bytes12) :
    decodeCommand w d pkt = .illegal w ↔ illegalWord w = true := by
  rcases reads_decodeCommand w d pkt with ⟨hw, hi⟩ | ⟨hw, hi, -⟩
  · exact ⟨fun _ => hw, fun _ => hi⟩
  · exact ⟨fun h => absurd h (hi w), fun h => absurd (hw.symm.trans h) Bool.false_ne_true⟩

/-- What is no ILLEGAL is well formed. -/
theorem wellFormed_of_ne_illegal {i : Instr} (h : ∀ v, i ≠ .illegal v) : wellFormed i = true := by
  cases i with
  | illegal w => exact absurd rfl (h w)
  | _ => rfl

/-- Settles O1: the fields of an encoded operation are its own, and an illegal word reads as ILLEGAL. -/
theorem decodeInvertsEncode : Obligations.DecodeInvertsEncode := by
  intro i hi
  cases i with
  | illegal w => exact congrArg Except.ok ((decodeCommand_eq_illegal_iff w 0 zeroBytes).2 hi)
  | invalid | bit0 | bit1 | preamble | idle => rfl
  | edge | rxPop | rxIdleCheck | txEnqueue | txTick | txSegment | txEnd | regRead | regWrite | reset =>
    simp [encode, plainCommand, decode, decodeCommand, orIllegal]

/-- Settles O2: the operation a word stands for is encoded in that word, ILLEGAL in its own. -/
theorem everyCommandWordIsRecovered : Obligations.EveryCommandWordIsRecovered := by
  intro w d pkt
  rcases reads_decodeCommand w d pkt with ⟨hw, hi⟩ | ⟨-, hi, d', pkt', henc⟩
  · exact ⟨.illegal w, 0, zeroBytes, congrArg Except.ok hi, hw, rfl⟩
  · exact ⟨_, d', pkt', rfl, wellFormed_of_ne_illegal hi, henc⟩

/-- R93 on a word as a number. -/
theorem illegalWord_iff (w : Word) : illegalWord w = true ↔
    w.toNat % 256 = 0 ∨ 0x0B ≤ w.toNat % 256
      ∨ w.toNat / 8192 ≠ 0
      ∨ (w.toNat / 256 % 2 ≠ 0 ∧ w.toNat % 256 ≠ 0x01 ∧ w.toNat % 256 ≠ 0x04)
      ∨ (w.toNat / 512 % 16 ≠ 0 ∧ w.toNat % 256 ≠ 0x08 ∧ w.toNat % 256 ≠ 0x09) := by
  have ha : aField w = true ↔ w.toNat / 256 % 2 ≠ 0 := (aField_iff w).trans (by omega)
  simp only [illegalWord, Bool.or_eq_true, Bool.and_eq_true, beq_iff_eq, bne_iff_ne, decide_eq_true_eq, opcField_toNat, ha,
    ne_eq, ridxField_eq_zero_iff, rsvField_eq_zero_iff, or_assoc, and_assoc]

/-- Settles O3: R93 on the word as a number; ILLEGAL is the diagnostic and nothing else. -/
theorem illegalWordsAreDiagnosed : Obligations.IllegalWordsAreDiagnosed := by
  intro w d pkt s
  refine ⟨?_, rfl, rfl⟩
  rw [← illegalWord_iff, ← decodeCommand_eq_illegal_iff w d pkt]
  exact ⟨Except.ok.inj, congrArg _⟩

/-- Settles O5: each word is decoded. -/
theorem tableWordsDecode : Obligations.TableWordsDecode := by
  unfold Obligations.TableWordsDecode; decide

end Sys2Proof

namespace Sys2Proof.Machine

open Sys2Proof

/-! ## The symbol codes -/

/-- The code of a symbol (30_encoding.md R86). -/
def Symbol.code : Symbol → BitVec 3
  | .invalid => 0
  | .bit0 => 1
  | .bit1 => 2
  | .preamble => 3
  | .idle => 4

/-- The code of a symbol is decoded to its operation. -/
theorem decode_symbol_code (sym : Symbol) : decode (.symbol sym.code) = .ok (symbolInstr sym) := by cases sym <;> rfl

theorem Symbol.code_le (sym : Symbol) : sym.code.toNat ≤ 4 := by cases sym <;> decide

/-- The codes 5, 6 and 7 have no rule (30_encoding.md R87). -/
theorem decodeSymbol_reserved {code : BitVec 3} (h : 5 ≤ code.toNat) : decodeSymbol code = .error (.reservedSymbol code) := by
  unfold decodeSymbol
  split
  case h_6 => rfl
  all_goals omega

/-- Settles O4: a reserved code is the decoder's one refusal, and the five symbols have the codes 0 to 4. -/
theorem reservedSymbolCodesAreRefused : Obligations.ReservedSymbolCodesAreRefused := by
  refine ⟨fun code s rest hagenda hcode => ?_, fun rec => ⟨(classify rec).code, Symbol.code_le _, decode_symbol_code _⟩⟩
  rw [step_of_offer hagenda, runRaw, decode, decodeSymbol_reserved hcode]

/-! ## The windows of CLASSIFY -/

/-- The record is a low followed by a high (30_encoding.md R84). -/
def LowHigh (rec : PulseRecord) : Prop := rec.level0 = .low ∧ rec.level1 = .high

/-- The tests of CLASSIFY in their order, on numbers (30_encoding.md R85). -/
theorem classify_of_lowHigh {rec : PulseRecord} (h : LowHigh rec) : classify rec =
    if 50000 ≤ rec.dur1Us.toNat then .idle
    else if 4400 ≤ rec.dur1Us.toNat ∧ rec.dur1Us.toNat ≤ 5600 then .preamble
    else if 400 ≤ rec.dur0Us.toNat ∧ rec.dur0Us.toNat ≤ 1600 then
      if 2400 ≤ rec.dur1Us.toNat ∧ rec.dur1Us.toNat ≤ 3600 then .bit1
      else if 400 ≤ rec.dur1Us.toNat ∧ rec.dur1Us.toNat ≤ 1600 then .bit0
      else .invalid
    else .invalid := by
  have hlevels : ¬(rec.level0 ≠ .low ∨ rec.level1 ≠ .high) := by rw [h.1, h.2]; decide
  rw [classify, if_neg hlevels]
  simp only [inWindow_iff]
  rfl

/-- A record that is no low followed by a high is INVALID (30_encoding.md R85). -/
theorem classify_of_not_lowHigh {rec : PulseRecord} (h : ¬LowHigh rec) : classify rec = .invalid := by
  rw [classify, if_pos (not_and_or.1 h)]

/-- Settles O31: the windows on `hi` do not overlap, so the order of the tests does not matter. -/
theorem classifyWindows : Obligations.ClassifyWindows := by
  intro rec
  change (_ ↔ LowHigh rec ∧ _) ∧ (_ ↔ LowHigh rec ∧ _) ∧ (_ ↔ LowHigh rec ∧ _) ∧ (_ ↔ LowHigh rec ∧ _)
  by_cases h : LowHigh rec
  · rw [classify_of_lowHigh h]
    split_ifs <;> simp only [h, true_and, false_iff, true_iff] <;> omega
  · rw [classify_of_not_lowHigh h]
    simp [h]

end Sys2Proof.Machine
end

section
/-! Runs of the machine over its agenda (20_memory.md R72, 30_encoding.md R95, R96): what each item makes the next step do. -/

namespace Sys2Proof.Machine

open Sys2Proof Sys2Proof.Safety

/-! ## Runs -/

/-- A run from `s` ends in `t`, with no fault and no refusal on the way. -/
def Reaches (s t : State) : Prop := ∃ k, core.run k s = .next t

theorem Reaches.refl (s : State) : Reaches s s := ⟨0, rfl⟩

/-- One step before a run. -/
theorem Reaches.of_step {s t u : State} (h : step s = .next t) : Reaches t u → Reaches s u
  | ⟨k, hk⟩ => ⟨k + 1, by
    have hstep : core.step s = .next t := h
    simp only [Host.Core.run, hstep]; exact hk⟩

theorem Reaches.single {s t : State} (h : step s = .next t) : Reaches s t := .of_step h (.refl t)

/-- One run after another. -/
theorem Reaches.trans {s t u : State} (hst : Reaches s t) (htu : Reaches t u) : Reaches s u := by
  obtain ⟨k, hk⟩ := hst
  induction k generalizing s with
  | zero => cases hk; exact htu
  | succ k ih =>
    simp only [Host.Core.run] at hk
    split at hk
    · exact .of_step ‹_› (ih hk)
    · cases hk
    · cases hk

/-! ## The items of the agenda -/

/-- A line of a program executes its operation (30_encoding.md R95): the decoder reads it back from its word. -/
theorem step_line {s : State} {i : Instr} {rest : List AgendaItem} (h : s.agenda = line i :: rest)
    (hi : wellFormed i = true) : step s = exec i { s with agenda := rest } := by
  rw [step_of_offer h, runRaw_of_decode (decodeInvertsEncode i hi)]

/-- RX_DRAIN with a record in the ring takes it (30_encoding.md R96). -/
theorem step_rxDrain_pop {s : State} {rest : List AgendaItem} (h : s.agenda = .rxDrain :: rest) (hc : 0 < s.pqCount) :
    step s = .next (popRecord s) := by
  rw [step, takeStep, h]
  exact (if_pos hc).trans (exec_rxPop hc)

/-- RX_DRAIN is done where the ring is empty (30_encoding.md R96). -/
theorem step_rxDrain_done {s : State} {rest : List AgendaItem} (h : s.agenda = .rxDrain :: rest) (hc : s.pqCount = 0) :
    step s = .next { s with agenda := rest } := by
  rw [step, takeStep, h]
  exact if_neg (by omega)

section TxRun

variable {s : State} {rest : List AgendaItem}

/-- The step of TX_RUN (30_encoding.md R96). -/
theorem step_txRun (h : s.agenda = .txRun :: rest) : step s = runBurst rest s := by rw [step, takeStep, h]

/-- Before the deadline TX_RUN advances T to it (30_encoding.md R96, 43_transmit.md R205). -/
theorem step_txRun_wait (h : s.agenda = .txRun :: rest) (hm : s.mode = .transmit)
    (ht : s.timeUs.toNat < s.txDeadline.toNat) : step s = .next { s with timeUs := s.txDeadline } := by
  have hsum : s.timeUs.toNat + (s.txDeadline.toNat - s.timeUs.toNat) = s.txDeadline.toNat := by omega
  have hmay : mayAdvance (s.txDeadline.toNat - s.timeUs.toNat) s = true :=
    (mayAdvance_iff _ _).2 ⟨by omega, by rw [hsum]; exact s.txDeadline.isLt, fun _ => hsum.le⟩
  rw [step_txRun h, runBurst, if_neg (by rw [hm]; decide), if_pos ht, advanceTime, if_pos hmay, hsum, BitVec.ofNat_toNat,
    BitVec.setWidth_eq]

/-- At the deadline of a segment TX_RUN takes TX_SEGMENT (30_encoding.md R96, 43_transmit.md R204). -/
theorem step_txRun_segment (h : s.agenda = .txRun :: rest) (hm : s.mode = .transmit) (ht : s.timeUs = s.txDeadline)
    (hseg : s.txSeg.toNat < s.txNseg.toNat) : step s = .next (driveSegment s) := by
  rw [step_txRun h, runBurst, if_neg (by rw [hm]; decide), if_neg (by rw [ht]; exact lt_irrefl _), if_pos hseg, exec_eq, after,
    if_pos ((txSegmentEnabled_iff s).2 ⟨hm, hseg, ht⟩)]

/-- At the deadline of the last segment TX_RUN takes TX_END and is done (30_encoding.md R96, 43_transmit.md R207). -/
theorem step_txRun_end (h : s.agenda = .txRun :: rest) (hm : s.mode = .transmit) (ht : s.timeUs = s.txDeadline)
    (hseg : s.txSeg = s.txNseg) : step s = .next (endBurst { s with agenda := rest }) := by
  rw [step_txRun h, runBurst, if_neg (by rw [hm]; decide), if_neg (by rw [ht]; exact lt_irrefl _),
    if_neg (by rw [hseg]; exact lt_irrefl _), exec_eq]
  exact congrArg _ (if_pos ((txEndEnabled_iff _).2 ⟨hm, hseg, ht⟩))

end TxRun

end Sys2Proof.Machine
end

section
/-! The burst waveform (43_transmit.md R190, R191, R200): SEG is its flattening, the sum of its segments is BURST_US; and TX_RUN,
which sends it (R204–R207). -/

namespace Sys2Proof.Machine

open Sys2Proof Sys2Proof.Safety

/-! ## SEG, region by region of one copy (43_transmit.md R191) -/

/-- A range of `m * n` numbers, counted in `m` groups of `n`. -/
theorem map_range_mul {α : Type} (f : Nat → α) (m n : Nat) :
    (List.range (m * n)).map f = (List.range m).flatMap fun i => (List.range n).map fun j => f (n * i + j) := by
  induction m with
  | zero => simp
  | succ m ih =>
    rw [Nat.succ_mul, List.range_add, List.map_append, ih, List.range_succ, List.flatMap_append, List.flatMap_singleton,
      List.map_map, Nat.mul_comm m n]
    rfl

theorem map_range_two {α : Type} (f : Nat → α) : (List.range 2).map f = [f 0, f 1] := rfl

/-- Segment `j` of copy `r` (43_transmit.md R191). -/
theorem segAt_copy (p : Packet) (r : Nat) {j : Nat} (hj : j < segsPerCopy p.len) : segAt p (segsPerCopy p.len * r + j) =
    if j = 0 then (.low, Config.txPreLowUs)
    else if j = 1 then (.high, Config.txPreHighUs)
    else if j < 16 * p.len.bytes + 2 then
      if (j - 2) % 2 = 0 then (.low, Config.txBitLowUs)
      else (.high, bitHighUs (packetBit p ((j - 2) / 2 / 8) ((j - 2) / 2 % 8)))
    else if j = 16 * p.len.bytes + 2 then
      (.low, if r < Config.nRepeats - 1 then Config.txGapLowUs else Config.txTrailLowUs)
    else if r < Config.nRepeats - 1 then (.high, Config.txGapHighUs)
    else (.high, Config.txTrailHighUs) := by
  have hdiv : (segsPerCopy p.len * r + j) / segsPerCopy p.len = r := by
    rw [Nat.mul_add_div (by omega), Nat.div_eq_of_lt hj, Nat.add_zero]
  have hmod : (segsPerCopy p.len * r + j) % segsPerCopy p.len = j := by
    rw [Nat.mul_add_mod, Nat.mod_eq_of_lt hj]
  simp only [segAt, hdiv, hmod]

/-- The two segments of bit `k` of byte `i` (43_transmit.md R191). -/
theorem segAt_bit (p : Packet) (r : Nat) {i k : Nat} (hi : i < p.len.bytes) (hk : k < 8) :
    ((List.range 2).map fun e => segAt p (segsPerCopy p.len * r + (2 + (16 * i + (2 * k + e))))) =
      bitSegments (packetBit p i k) := by
  have region (e : Nat) (he : e < 2) : segAt p (segsPerCopy p.len * r + (2 + (16 * i + (2 * k + e)))) =
      if e = 0 then (.low, Config.txBitLowUs) else (.high, bitHighUs (packetBit p i k)) := by
    have hbyte : (2 + (16 * i + (2 * k + e)) - 2) / 2 / 8 = i := by omega
    have hbit : (2 + (16 * i + (2 * k + e)) - 2) / 2 % 8 = k := by omega
    have heven : (2 + (16 * i + (2 * k + e)) - 2) % 2 = 0 ↔ e = 0 := by omega
    rw [segAt_copy p r (by rw [segsPerCopy]; omega), if_neg (by omega), if_neg (by omega), if_pos (by omega), hbyte, hbit]
    simp only [heven]
  rw [map_range_two, region 0 (by decide), region 1 (by decide)]; rfl

/-- The last two segments of a copy (43_transmit.md R191). -/
theorem segAt_closing (p : Packet) (r : Nat) :
    ((List.range 2).map fun e => segAt p (segsPerCopy p.len * r + (2 + 16 * p.len.bytes + e))) = closingSegments r := by
  have hlow : segAt p (segsPerCopy p.len * r + (2 + 16 * p.len.bytes + 0)) =
      (.low, if r < Config.nRepeats - 1 then Config.txGapLowUs else Config.txTrailLowUs) := by
    rw [segAt_copy p r (by rw [segsPerCopy]; omega), if_neg (by omega), if_neg (by omega), if_neg (by omega), if_pos (by omega)]
  have hhigh : segAt p (segsPerCopy p.len * r + (2 + 16 * p.len.bytes + 1)) =
      if r < Config.nRepeats - 1 then (.high, Config.txGapHighUs) else (.high, Config.txTrailHighUs) := by
    rw [segAt_copy p r (by rw [segsPerCopy]; omega), if_neg (by omega), if_neg (by omega), if_neg (by omega), if_neg (by omega)]
  rw [map_range_two, hlow, hhigh, closingSegments]
  split <;> rfl

/-- A copy of the packet is its segments in order (43_transmit.md R190, R191). -/
theorem map_segAt_copy (p : Packet) (r : Nat) :
    ((List.range (segsPerCopy p.len)).map fun j => segAt p (segsPerCopy p.len * r + j)) = copySegments p r := by
  have hpre : (List.range 2).map (fun j => segAt p (segsPerCopy p.len * r + j)) =
      [(.low, Config.txPreLowUs), (.high, Config.txPreHighUs)] := by
    rw [map_range_two, segAt_copy p r (by rw [segsPerCopy]; omega), segAt_copy p r (by rw [segsPerCopy]; omega)]; rfl
  have hbytes : (List.range (p.len.bytes * (8 * 2))).map (fun n => segAt p (segsPerCopy p.len * r + (2 + n))) =
      (List.range p.len.bytes).flatMap (byteSegments p) := by
    rw [map_range_mul]
    refine List.flatMap_congr fun i hi => ?_
    rw [map_range_mul (fun n => segAt p (segsPerCopy p.len * r + (2 + (8 * 2 * i + n)))), byteSegments]
    exact List.flatMap_congr fun k hk => segAt_bit p r (List.mem_range.1 hi) (List.mem_range.1 hk)
  have hsplit : List.range (segsPerCopy p.len) = List.range (2 + p.len.bytes * (8 * 2) + 2) := by
    congr 1; rw [segsPerCopy]; omega
  rw [hsplit, List.range_add, List.range_add, List.map_append, List.map_append, List.map_map, List.map_map, hpre, copySegments,
    ← hbytes, ← segAt_closing, Nat.mul_comm 16]
  rfl

/-- The burst is its segments in order (43_transmit.md R190, R191). -/
theorem burst_eq_map_segAt (p : Packet) : burst p = (List.range (nseg p.len)).map (segAt p) := by
  rw [nseg, map_range_mul, burst]
  exact List.flatMap_congr fun r _ => (map_segAt_copy p r).symm

/-! ## The duration of a burst (43_transmit.md R200) -/

/-- The sum of the durations of some segments, in µs. -/
def totalUs (segs : List Segment) : Nat := (segs.map Prod.snd).sum

@[simp] theorem totalUs_nil : totalUs [] = 0 := rfl

@[simp] theorem totalUs_cons (seg : Segment) (segs : List Segment) : totalUs (seg :: segs) = seg.2 + totalUs segs := by
  simp [totalUs]

@[simp] theorem totalUs_append (l m : List Segment) : totalUs (l ++ m) = totalUs l + totalUs m := by
  simp [totalUs]

/-- A bit takes 2000 µs, and 2000 µs more if it is 1. -/
theorem totalUs_bits (bits : List Bool) : totalUs (bits.flatMap bitSegments) = 2000 * bits.length + 2000 * bits.count true := by
  induction bits with
  | nil => rfl
  | cons b bits ih =>
    rw [List.flatMap_cons, totalUs_append, ih, List.length_cons, List.count_cons]
    cases b <;> simp [bitSegments, bitHighUs, Config.txBitLowUs, Config.txBit1HighUs, Config.txBit0HighUs] <;> omega

/-- The bits of a packet in the order they are sent (20_memory.md R62). -/
def packetBits (p : Packet) : List Bool := (List.range p.len.bytes).flatMap fun i => (List.range 8).map (packetBit p i)

theorem onesOf_eq (p : Packet) : onesOf p = (packetBits p).count true := rfl

theorem packetBits_length (p : Packet) : (packetBits p).length = 8 * p.len.bytes := by
  simp [packetBits, List.length_flatMap, Nat.mul_comm]

theorem bytes_eq_bits (p : Packet) : (List.range p.len.bytes).flatMap (byteSegments p) = (packetBits p).flatMap bitSegments := by
  rw [packetBits, List.flatMap_assoc]
  exact List.flatMap_congr fun i _ => by rw [List.flatMap_map]; rfl

/-- One copy takes its preamble, its bits and its end (43_transmit.md R200). -/
theorem totalUs_copy (p : Packet) (r : Nat) :
    totalUs (copySegments p r) = 14000 + 16000 * p.len.bytes + 2000 * onesOf p + totalUs (closingSegments r) := by
  have hpre : totalUs [(.low, Config.txPreLowUs), (.high, Config.txPreHighUs)] = 14000 := rfl
  rw [copySegments, totalUs_append, totalUs_append, bytes_eq_bits, totalUs_bits, packetBits_length, ← onesOf_eq, hpre]
  omega

/-- BURST_US is the sum of the waveform's segments (43_transmit.md R200). -/
theorem burstUs_eq_totalUs (p : Packet) : burstUs p = totalUs (burst p) := by
  have hrange : List.range Config.nRepeats = [0, 1, 2, 3, 4, 5, 6, 7] := rfl
  simp only [burst, hrange, List.flatMap_cons, List.flatMap_nil, totalUs_append, totalUs_nil, totalUs_copy]
  simp [burstUs, closingSegments, Config.nRepeats, Config.txGapLowUs, Config.txGapHighUs, Config.txTrailLowUs,
    Config.txTrailHighUs]
  omega

/-- No segment is empty (43_transmit.md R190). -/
theorem segAt_pos (p : Packet) (i : Nat) : 0 < (segAt p i).2 := by
  simp only [segAt, bitHighUs, Config.txPreLowUs, Config.txPreHighUs, Config.txBitLowUs, Config.txBit1HighUs,
    Config.txBit0HighUs, Config.txGapLowUs, Config.txGapHighUs, Config.txTrailLowUs, Config.txTrailHighUs]
  split_ifs <;> decide

/-! ## TX_RUN -/

/-- The burst of packet `p` stands at segment `n`, which is due now, and TX_RUN is first on the agenda. -/
structure Sending (p : Packet) (n : Nat) (rest : List AgendaItem) (s : State) : Prop where
  mode : s.mode = .transmit
  txPkt : s.txPkt = p
  txNseg : s.txNseg.toNat = nseg p.len
  txSeg : s.txSeg.toNat = n
  due : s.timeUs = s.txDeadline
  agenda : s.agenda = .txRun :: rest

/-- The event of one segment (43_transmit.md R204). -/
def segEvent (seg : Segment) : Event := .seg seg.1 seg.2

/-- TX_RUN sends the segment that is due and waits for its end (43_transmit.md R204, R205). -/
theorem Sending.next {p : Packet} {n : Nat} {rest : List AgendaItem} {s : State} (h : Sending p n rest s) (hn : n < nseg p.len)
    (ht : s.timeUs.toNat + (segAt p n).2 < 2 ^ 64) :
    ∃ t, Reaches s t ∧ Sending p (n + 1) rest t ∧ t.timeUs.toNat = s.timeUs.toNat + (segAt p n).2
      ∧ t.history.map Stamped.event = s.history.map Stamped.event ++ [segEvent (segAt p n)] := by
  have hpos := segAt_pos p n
  have hseg : s.txSeg.toNat < s.txNseg.toNat := by rw [h.txSeg, h.txNseg]; exact hn
  have hsegs : segAt s.txPkt s.txSeg.toNat = segAt p n := by rw [h.txPkt, h.txSeg]
  have hdeadline : (driveSegment s).txDeadline.toNat = s.timeUs.toNat + (segAt p n).2 := by
    rw [driveSegment_txDeadline, hsegs, ← h.due, deadlineAfter, if_pos ht, BitVec.toNat_add, BitVec.toNat_ofNat]
    omega
  refine ⟨{ driveSegment s with timeUs := (driveSegment s).txDeadline },
    .of_step (step_txRun_segment h.agenda h.mode h.due hseg)
      (.single (step_txRun_wait (s := driveSegment s) h.agenda h.mode ?_)), ?_, hdeadline, ?_⟩
  · rw [hdeadline, driveSegment_timeUs]; omega
  · refine ⟨h.mode, h.txPkt, h.txNseg, ?_, rfl, h.agenda⟩
    show (s.txSeg + 1).toNat = n + 1
    have := h.txSeg
    bv_omega
  · rw [driveSegment_history, hsegs]; simp [segEvent]

/-- TX_RUN sends `m` segments one after the other; they take the sum of their durations. -/
theorem Sending.next_segments {p : Packet} {rest : List AgendaItem} (m : Nat) {n : Nat} {s : State} (h : Sending p n rest s)
    (hn : n + m ≤ nseg p.len) (ht : s.timeUs.toNat + totalUs ((List.range' n m).map (segAt p)) < 2 ^ 64) :
    ∃ t, Reaches s t ∧ Sending p (n + m) rest t
      ∧ t.timeUs.toNat = s.timeUs.toNat + totalUs ((List.range' n m).map (segAt p))
      ∧ t.history.map Stamped.event =
          s.history.map Stamped.event ++ ((List.range' n m).map (segAt p)).map segEvent := by
  induction m generalizing n s with
  | zero => exact ⟨s, .refl s, h, rfl, by simp⟩
  | succ m ih =>
    rw [List.range'_succ, List.map_cons, totalUs_cons] at ht ⊢
    obtain ⟨u, hsu, hu, htime, hhist⟩ := h.next (by omega) (by omega)
    obtain ⟨t, hut, ht', htime', hhist'⟩ := ih hu (by omega) (by omega)
    refine ⟨t, hsu.trans hut, by rwa [Nat.add_right_comm] at ht', by omega, ?_⟩
    rw [hhist', hhist, List.map_cons, List.append_assoc, List.singleton_append]

/-- Settles O55: TX_RUN sends the segments of the waveform one by one, and then TX_END. -/
theorem burstRunsToItsEnd : Obligations.BurstRunsToItsEnd := by
  intro s hmode hnseg hseg hdeadline htime hagenda
  have hstart : Sending s.txPkt 0 [] s := ⟨hmode, rfl, hnseg, by rw [hseg]; rfl, hdeadline.symm, hagenda⟩
  have hsegs : (List.range' 0 (nseg s.txPkt.len)).map (segAt s.txPkt) = burst s.txPkt := by
    rw [burst_eq_map_segAt, List.range_eq_range']
  rw [burstUs_eq_totalUs] at htime ⊢
  obtain ⟨t, hreach, hlast, ht, hhist⟩ :=
    hstart.next_segments (nseg s.txPkt.len) (Nat.zero_add _).le (by rw [hsegs]; exact htime)
  rw [hsegs] at ht hhist
  have hall : t.txSeg = t.txNseg := by rw [← BitVec.toNat_inj, hlast.txSeg, hlast.txNseg, Nat.zero_add]
  obtain ⟨k, hk⟩ := hreach.trans (.single (step_txRun_end hlast.agenda hlast.mode hlast.due hall))
  refine ⟨k, _, hk, rfl, ht, ?_, rfl, rfl, rfl, rfl⟩
  simp only [endBurst_history, List.map_append, List.map_singleton, hhist]
  rfl

end Sys2Proof.Machine
end

section
/-! Frames on the receive side (30_encoding.md R80, R88): the checksum in both polarities, the bytes the framer has received, and
the delivery of a frame from its records (42_checksum.md R177, R178). -/

namespace Sys2Proof.Machine

open Sys2Proof Sys2Proof.Safety

/-! ## The checksum of the complement (42_checksum.md R171, R173) -/

theorem summedBytes_map (f : Byte → Byte) (bytes : List Byte) (len : FrameLen) :
    summedBytes (bytes.map f) len = (summedBytes bytes len).map f := by
  cases len
  · rw [summedBytes, summedBytes, ← List.map_drop, ← List.map_take]
  · rw [summedBytes, summedBytes, ← List.map_take]

/-- How many bytes enter the checksum: 7 of a short frame and 11 of a long one (42_checksum.md R170). -/
theorem summedBytes_length {bytes : List Byte} {len : FrameLen} (h : bytes.length = len.bytes) :
    (summedBytes bytes len).length = match len with
      | .short => 7
      | .long => 11 := by
  cases len <;> rw [FrameLen.bytes] at h <;> simp [summedBytes, h]

/-- A byte and its complement make 255. -/
theorem sum_complement (bytes : List Byte) :
    ((bytes.map fun b => ~~~b).map BitVec.toNat).sum + (bytes.map BitVec.toNat).sum = 255 * bytes.length := by
  induction bytes with
  | nil => rfl
  | cons b bytes ih =>
    have hb : (~~~b).toNat = 255 - b.toNat := BitVec.toNat_not
    have := b.isLt
    simp only [List.map_cons, List.sum_cons, List.length_cons, hb]
    omega

theorem checkByte_complement {bytes : List Byte} {len : FrameLen} (h : bytes.length = len.bytes) :
    checkByte (bytes.map fun b => ~~~b) len = ~~~checkByte bytes len := by
  have hlast : len.bytes - 1 < bytes.length := by cases len <;> rw [h] <;> decide
  rw [checkByte, checkByte, List.getD_eq_getElem _ _ (by rwa [List.length_map]), List.getD_eq_getElem _ _ hlast, List.getElem_map]

/-- Where a frame has the right checksum, its complement has not (42_checksum.md R173). -/
theorem checksum_complement_ne {bytes : List Byte} {len : FrameLen} (h : bytes.length = len.bytes)
    (hsum : checksum bytes len = checkByte bytes len) :
    checksum (bytes.map fun b => ~~~b) len ≠ checkByte (bytes.map fun b => ~~~b) len := by
  rw [checkByte_complement h, ← hsum, checksum, checksum, summedBytes_map, Ne, ← BitVec.toNat_inj, BitVec.toNat_not]
  have htotal := sum_complement (summedBytes bytes len)
  rw [summedBytes_length h] at htotal
  simp only [BitVec.toNat_ofNat]
  cases len <;> dsimp only at htotal <;> omega

theorem map_complement_complement (bytes : List Byte) : (bytes.map fun b => ~~~b).map (fun b => ~~~b) = bytes := by
  rw [List.map_map]
  exact (List.map_congr_left fun b _ => BitVec.not_not).trans (List.map_id bytes)

/-- The bytes a frame of this origin shows on the wire: a heater sends the complement (30_encoding.md R88). -/
def wirePattern : Origin → List Byte → List Byte
  | .controller, bytes => bytes
  | .heater, bytes => bytes.map fun b => ~~~b

@[simp] theorem wirePattern_length (v : Origin) (bytes : List Byte) : (wirePattern v bytes).length = bytes.length := by
  cases v
  · rfl
  · exact List.length_map _

/-- VALIDATE names the origin of a frame with a right checksum from its pattern on the wire (42_checksum.md R172). -/
theorem validate_wirePattern (v : Origin) {bytes : List Byte} {len : FrameLen} (h : bytes.length = len.bytes)
    (hsum : checksum bytes len = checkByte bytes len) : validate (wirePattern v bytes) len = some v := by
  cases v with
  | controller => exact if_pos hsum
  | heater =>
    have hcompl : complement (bytes.map fun b => ~~~b) len = bytes := by
      rw [complement, List.take_of_length_le (by rw [List.length_map, h]), map_complement_complement]
    rw [wirePattern, validate, if_neg (checksum_complement_ne h hsum)]
    dsimp only
    rw [hcompl, if_pos hsum]

/-! ## The end of a valid candidate -/

theorem frameLenOf_of_bytes {n : BitVec 4} {len : FrameLen} (h : n.toNat = len.bytes) : frameLenOf n = some len := by
  have hn : n = lenField len := by
    rw [← BitVec.toNat_inj, h]; cases len <;> rfl
  rw [hn]; cases len <;> rfl

/-- Where the buffer holds the pattern of a frame with a right checksum, END_FRAME finalizes that frame with its origin
(41_framer.md R143, 42_checksum.md R176). -/
theorem endFrame_of_wirePattern (trig : Trigger) {s : State} {v : Origin} {bytes : List Byte} {len : FrameLen}
    (h : bytes.length = len.bytes) (hsum : checksum bytes len = checkByte bytes len) (hlen : s.frLen.toNat = len.bytes)
    (hbuf : s.frBuf.toList.take len.bytes = wirePattern v bytes) :
    endFrame trig s = frReset (emit (.frame len bytes v.source s.frTimeMs) (takeOrigin v len s)) := by
  have hv : validate s.frBuf.toList len = some v := by rw [← validate_take, hbuf, validate_wirePattern v h hsum]
  have hevent : frameEvent len (takeOrigin v len s) = .frame len bytes v.source s.frTimeMs := by
    cases v with
    | controller => rw [frameEvent, takeOrigin, frameBytes, hbuf]; rfl
    | heater =>
      rw [frameEvent, takeOrigin, frameBytes_complementBuffer, hbuf, wirePattern, map_complement_complement]; rfl
  simp only [endFrame, frameLenOf_of_bytes hlen, hv, finalize, hevent]

/-- FINALIZE writes the candidate's outcome and one origin's time, nothing else (42_checksum.md R176). -/
theorem takeOrigin_frame (v : Origin) (len : FrameLen) (s : State) : takeOrigin v len s = { s with
    frFinalized := true, frBuf := (takeOrigin v len s).frBuf, frSrc := v.source
    ctrlKnown := (takeOrigin v len s).ctrlKnown, lastCtrlMs := (takeOrigin v len s).lastCtrlMs
    lastHeaterMs := (takeOrigin v len s).lastHeaterMs } := by cases v <;> rfl

@[simp] theorem takeOrigin_history (v : Origin) (len : FrameLen) (s : State) : (takeOrigin v len s).history = s.history := by
  rw [takeOrigin_frame]
@[simp] theorem takeOrigin_timeUs (v : Origin) (len : FrameLen) (s : State) : (takeOrigin v len s).timeUs = s.timeUs := by
  rw [takeOrigin_frame]
@[simp] theorem takeOrigin_ctrlKnown (v : Origin) (len : FrameLen) (s : State) :
    (takeOrigin v len s).ctrlKnown = (s.ctrlKnown || decide (v = .controller)) := by
  cases v
  · exact (Bool.or_true _).symm
  · exact (Bool.or_false _).symm
@[simp] theorem takeOrigin_lastCtrlMs (v : Origin) (len : FrameLen) (s : State) :
    (takeOrigin v len s).lastCtrlMs = if v = .controller then s.frTimeMs else s.lastCtrlMs := by cases v <;> rfl
@[simp] theorem takeOrigin_lastHeaterMs (v : Origin) (len : FrameLen) (s : State) :
    (takeOrigin v len s).lastHeaterMs = if v = .heater then s.frTimeMs else s.lastHeaterMs := by cases v <;> rfl

/-! ## The bytes of a candidate -/

/-- The packet buffer after these bytes (41_framer.md R141). -/
def bufferOf (bytes : List Byte) : Bytes12 := Vector.ofFn fun i : Fin 12 => bytes.getD i.val 0

theorem bufferOf_concat (bytes : List Byte) (b : Byte) :
    (bufferOf bytes).setIfInBounds bytes.length b = bufferOf (bytes ++ [b]) := by
  apply Vector.ext
  intro i hi
  rw [Vector.getElem_setIfInBounds hi, bufferOf, bufferOf, Vector.getElem_ofFn, Vector.getElem_ofFn]
  rcases Nat.lt_trichotomy i bytes.length with h | rfl | h
  · rw [if_neg (by omega), List.getD_append _ _ _ _ h]
  · simp
  · simp [List.getD_eq_getElem?_getD, h.le, h, h.ne]

theorem take_bufferOf {bytes : List Byte} (h : bytes.length ≤ 12) : (bufferOf bytes).toList.take bytes.length = bytes := by
  apply List.ext_getElem
  · simp [h]
  · intro i _ hi
    simp [bufferOf, List.getElem?_eq_getElem hi]

/-- `s` with these bytes in the packet buffer. -/
def withBytes (bytes : List Byte) (s : State) : State :=
  { s with frBuf := bufferOf bytes, frLen := BitVec.ofNat 4 bytes.length }

theorem withBytes_nil_frStart (s : State) : withBytes [] (frStart s) = frStart s := rfl

theorem withBytes_frStart_started (bytes : List Byte) (s : State) : (withBytes bytes (frStart s)).frStarted = true := rfl

theorem withBytes_frLen_toNat {bytes : List Byte} (h : bytes.length ≤ 12) (s : State) :
    (withBytes bytes s).frLen.toNat = bytes.length :=
  Nat.mod_eq_of_lt (Nat.lt_of_le_of_lt h (by decide))

/-- The bits of some bytes in the order they are sent (20_memory.md R62). -/
def bitsOf (bytes : List Byte) : List Bool := bytes.flatMap fun b => (List.range 8).map fun k => b.getLsbD k

theorem bitsOf_length (bytes : List Byte) : (bitsOf bytes).length = 8 * bytes.length := by
  simp [bitsOf, List.length_flatMap, Nat.mul_comm]

theorem bitsOf_concat (bytes : List Byte) (b : Byte) :
    bitsOf (bytes ++ [b]) = bitsOf bytes ++ (List.range 8).map fun k => b.getLsbD k := by
  rw [bitsOf, List.flatMap_append, List.flatMap_singleton, bitsOf]

/-- The bits of up to twelve bytes after a preamble fill the packet buffer with them (41_framer.md R141). -/
theorem execAll_bitsOf {bytes : List Byte} (h : bytes.length ≤ 12) (s : State) :
    execAll ((bitsOf bytes).map bitInstr) (frStart s) = .next (withBytes bytes (frStart s)) := by
  induction bytes using List.reverseRecOn with
  | nil => rw [withBytes_nil_frStart]; rfl
  | append_singleton bytes b ih =>
    rw [List.length_append, List.length_singleton] at h
    have hlen := withBytes_frLen_toNat (bytes := bytes) (by omega) (frStart s)
    have hbyte := eightBitsMakeTheByte (withBytes bytes (frStart s)) b rfl rfl rfl (by omega)
    rw [bitsOf_concat, List.map_append, execAll_append (ih (by omega)), List.map_map]
    refine hbyte.trans ?_
    rw [hlen, withBytes, withBytes, bufferOf_concat, List.length_append, List.length_singleton, BitVec.ofNat_add]
    rfl

/-- A candidate that holds a valid frame's pattern is delivered at its end (41_framer.md R143, 42_checksum.md R176). -/
theorem endFrame_withBytes (trig : Trigger) (v : Origin) {bytes : List Byte} {len : FrameLen} (h : bytes.length = len.bytes)
    (hsum : checksum bytes len = checkByte bytes len) {s t : State} (hbuf : s.frBuf = (withBytes (wirePattern v bytes) t).frBuf)
    (hlen : s.frLen = (withBytes (wirePattern v bytes) t).frLen) :
    endFrame trig s = frReset (emit (.frame len bytes v.source s.frTimeMs) (takeOrigin v len s)) := by
  have hpattern : (wirePattern v bytes).length = len.bytes := (wirePattern_length v bytes).trans h
  have hle : (wirePattern v bytes).length ≤ 12 := by rw [hpattern]; cases len <;> decide
  refine endFrame_of_wirePattern trig h hsum ?_ ?_
  · rw [hlen, withBytes_frLen_toNat hle, hpattern]
  · rw [hbuf, ← hpattern]; exact take_bufferOf hle

/-! ## The records of a frame (30_encoding.md R80, R88) -/

/-- The nominal record of a bit is its symbol (30_encoding.md R85). -/
theorem symbolInstr_bitRecord (b : Bool) : symbolInstr (classify (bitRecord b)) = bitInstr b := by cases b <;> decide

theorem wireRecords_eq (pattern : List Byte) : wireRecords pattern =
    ⟨.low, 9000, .high, 5000⟩ :: ((bitsOf pattern).map bitRecord ++ [⟨.low, 1000, .high, 100000⟩]) := by
  rw [wireRecords, bitsOf, List.map_flatMap, List.append_assoc, List.singleton_append]
  simp only [List.map_map, Function.comp_def]

/-- The symbols of a frame's records: the preamble, the bits, and the IDLE that the gap makes. -/
theorem symbols_wireRecords (pattern : List Byte) : (wireRecords pattern).map (fun r => symbolInstr (classify r)) =
    .preamble :: ((bitsOf pattern).map bitInstr ++ [.idle]) := by
  have hpre : symbolInstr (classify ⟨.low, 9000, .high, 5000⟩) = .preamble := by decide
  have hgap : symbolInstr (classify ⟨.low, 1000, .high, 100000⟩) = .idle := by decide
  rw [wireRecords_eq, List.map_cons, List.map_append, List.map_map, List.map_singleton, hpre, hgap]
  congr 2
  exact List.map_congr_left fun b _ => symbolInstr_bitRecord b

theorem exec_preamble_of_idle {s : State} (h : s.frStarted = false) : exec .preamble s = .next (frStart s) := by
  rw [exec_eq, after, symPreamble, h]; rfl

/-- The records of a valid frame's pattern deliver it with its origin (42_checksum.md R177, R178). -/
theorem execRecords_wirePattern (v : Origin) {s : State} {bytes : List Byte} {len : FrameLen} (h : bytes.length = len.bytes)
    (hsum : checksum bytes len = checkByte bytes len) (hs : s.frStarted = false) :
    execRecords (wireRecords (wirePattern v bytes)) s = .next (frReset
      (emit (.frame len bytes v.source (nowMs s)) (takeOrigin v len (withBytes (wirePattern v bytes) (frStart s))))) := by
  have hle : (wirePattern v bytes).length ≤ 12 := by rw [wirePattern_length, h]; cases len <;> decide
  rw [execRecords, symbols_wireRecords, execAll, exec_preamble_of_idle hs]
  dsimp only
  rw [execAll_concat (execAll_bitsOf hle s) (exec_eq _ _), after, symIdle,
    if_pos (withBytes_frStart_started _ _), endFrame_withBytes .idle v h hsum rfl rfl]
  rfl

/-- Settles O41: the records of either polarity deliver the frame, with the origin of that polarity. -/
theorem wireRecordsDecodeToTheFrame : Obligations.WireRecordsDecodeToTheFrame := by
  intro s len bytes h hsum hs
  refine ⟨⟨_, execRecords_wirePattern .controller h hsum hs, ?_⟩, _, execRecords_wirePattern .heater h hsum hs, ?_⟩ <;>
    simp [withBytes, Origin.source]

end Sys2Proof.Machine
end

section
/-! A frame on the wire (30_encoding.md R96): what the edges of a pulse do to the drained block, and that a valid frame is
delivered unchanged in either polarity (42_checksum.md R177, R178). -/

namespace Sys2Proof.Machine

open Sys2Proof Sys2Proof.Safety

/-! ## The framer's view of a state -/

/-- The candidate and the events so far: what a bit symbol reads and writes (41_framer.md R141). -/
structure FramerView where
  buf : Bytes12
  len : BitVec 4
  cur : Byte
  bidx : BitVec 3
  started : Bool
  startMs : Time
  events : List Event

/-- The view of a state. -/
def framerView (s : State) : FramerView :=
  ⟨s.frBuf, s.frLen, s.frCur, s.frBidx, s.frStarted, s.frTimeMs, s.history.map Stamped.event⟩

/-- The view after a bit symbol: not started; inside a byte; a thirteenth byte; and the last bit of a byte (41_framer.md R141). -/
def FramerView.bit (f : FramerView) (b : Bool) : FramerView :=
  let cur := f.cur ||| ((if b then 1#8 else 0#8) <<< f.bidx.toNat)
  if f.started = false then f
  else if f.bidx ≠ 7 then { f with cur := cur, bidx := f.bidx + 1 }
  else if f.len = 12 then ⟨zeroBytes, 0, 0, 0, false, 0, f.events ++ [.diag .overlong .bit 12]⟩
  else { f with buf := f.buf.setIfInBounds f.len.toNat cur, len := f.len + 1, cur := 0, bidx := 0 }

/-- A bit symbol acts on the view alone. -/
theorem framerView_symBit (b : Bool) (s : State) : framerView (symBit b s) = (framerView s).bit b := by
  cases hs : s.frStarted with
  | false => simp [symBit, FramerView.bit, framerView, hs]
  | true =>
    rw [symBit, if_pos hs]
    rcases appendBit_cases b s with ⟨h7, he⟩ | ⟨h7, h12, he⟩ | ⟨h7, h12, he⟩ <;> rw [he]
    · simp only [FramerView.bit, framerView, hs, Bool.true_eq_false, if_false, if_pos h7, accumulate]
    · simp [FramerView.bit, framerView, hs, h7, h12]
    · simpa [FramerView.bit, framerView, hs, h7, accumulate] using h12

/-- The view after some bit symbols. -/
def FramerView.bits (f : FramerView) (bits : List Bool) : FramerView := bits.foldl FramerView.bit f

/-- Bits executed one after the other act on the view alone. -/
theorem framerView_execAll {bits : List Bool} {s t : State} (h : execAll (bits.map bitInstr) s = .next t) :
    framerView t = (framerView s).bits bits := by
  induction bits generalizing s with
  | nil => cases h; rfl
  | cons b bits ih =>
    rw [List.map_cons, execAll, exec_bitInstr] at h
    rw [ih h, framerView_symBit]; rfl

/-! ## What a symbol leaves alone -/

@[simp] theorem runSymbol_timeUs (sym : Symbol) (s : State) : (runSymbol sym s).timeUs = s.timeUs := by rw [runSymbol_frame]
@[simp] theorem runSymbol_mode (sym : Symbol) (s : State) : (runSymbol sym s).mode = s.mode := by rw [runSymbol_frame]
@[simp] theorem runSymbol_lastEdge (sym : Symbol) (s : State) : (runSymbol sym s).lastEdge = s.lastEdge := by rw [runSymbol_frame]
@[simp] theorem runSymbol_pqHead (sym : Symbol) (s : State) : (runSymbol sym s).pqHead = s.pqHead := by rw [runSymbol_frame]
@[simp] theorem runSymbol_pqCount (sym : Symbol) (s : State) : (runSymbol sym s).pqCount = s.pqCount := by rw [runSymbol_frame]
@[simp] theorem runSymbol_agenda (sym : Symbol) (s : State) : (runSymbol sym s).agenda = s.agenda := by rw [runSymbol_frame]

/-! ## A falling edge and the drain behind it (30_encoding.md R96) -/

/-- The block listens and its ring is drained; `rest` is on the agenda. -/
structure Drained (rest : List AgendaItem) (s : State) : Prop where
  mode : s.mode = .receive
  pqCount : s.pqCount = 0
  pqHead : s.pqHead < Config.pqCap
  agenda : s.agenda = rest

/-- The line has just fallen, and the ring has been drained. -/
structure Fallen (rest : List AgendaItem) (s : State) : Prop extends Drained rest s where
  lastEdge : s.lastEdge = s.timeUs.setWidth 32

/-- The falling edge of a pulse, and the drain that takes the record it publishes. -/
def fallingEdge : List AgendaItem := [line (.edge .low), .rxDrain]

/-- An edge in Receive mode is captured (40_capture.md R110). -/
theorem step_edge {l : Level} {rest : List AgendaItem} {s : State} (h : s.agenda = line (.edge l) :: rest)
    (hm : s.mode = .receive) : step s = .next (captureEdge l { s with agenda := rest }) :=
  (step_line h rfl).trans (exec_edge (s := { s with agenda := rest }) hm l)

/-- A falling edge with no low pending publishes no record. -/
theorem fallingEdge_unpaired {rest : List AgendaItem} {s : State} (h : Drained (fallingEdge ++ rest) s)
    (hp : s.pendValid = false) :
    ∃ t, Reaches s t ∧ Fallen rest t ∧ t.timeUs = s.timeUs ∧ framerView t = framerView s := by
  have hedge : captureEdge .low { s with agenda := .rxDrain :: rest } =
      { s with agenda := .rxDrain :: rest, lastEdge := s.timeUs.setWidth 32 } := by
    rcases captureEdge_cases .low { s with agenda := .rxDrain :: rest } with ⟨hl, -⟩ | ⟨-, hv, -⟩ | ⟨-, -, he⟩
    · cases hl
    · exact absurd (hp.symm.trans hv) Bool.false_ne_true
    · exact he
  refine ⟨{ s with agenda := rest, lastEdge := s.timeUs.setWidth 32 }, ?_, ⟨⟨h.mode, h.pqCount, h.pqHead, rfl⟩, rfl⟩, rfl, rfl⟩
  refine .of_step (step_edge (rest := .rxDrain :: rest) h.agenda h.mode) (.single ?_)
  rw [hedge]
  exact step_rxDrain_done rfl h.pqCount

/-- A record pushed on a drained ring is the one popped next (20_memory.md R63, R64). -/
theorem pqFront_push_drained {rest : List AgendaItem} {s : State} (h : Drained rest s) (rec : PulseRecord) :
    pqFront (pqPush rec s) = rec := by
  have hle : s.pqCount ≤ Config.pqCap := by rw [h.pqCount]; exact Nat.zero_le _
  have hone : pqContents (pqPush rec s) = [rec] := by
    have hempty : pqContents s = [] := List.length_eq_zero_iff.1 ((pqContents_length s).trans h.pqCount)
    rw [pqContents_push rec hle, if_neg (by rw [h.pqCount]; decide), hempty, List.nil_append]
  have hcount : 0 < (pqPush rec s).pqCount := by rw [pqPush_pqCount rec hle, h.pqCount]; decide
  rw [pqContents_pop (pqPush_pqHead_lt rec h.pqHead) hcount] at hone
  exact (List.cons.inj hone).1

/-- A falling edge with a low pending leaves its record alone in a drained ring (40_capture.md R113). -/
theorem captureEdge_low_of_pending {rest : List AgendaItem} {s : State} (h : Drained rest s) (hp : s.pendValid = true) :
    (captureEdge .low s).pqCount = 1 ∧ pqFront (captureEdge .low s) = ⟨.low, s.pendDur, .high, durSinceEdge s⟩
      ∧ (captureEdge .low s).lastEdge = s.timeUs.setWidth 32 := by
  rcases captureEdge_cases .low s with ⟨hl, -⟩ | ⟨-, -, he⟩ | ⟨-, hv, -⟩
  · cases hl
  · have hcount := pqPush_pqCount ⟨.low, s.pendDur, .high, durSinceEdge s⟩ (h.pqCount.trans_le (Nat.zero_le Config.pqCap))
    rw [h.pqCount] at hcount
    rw [he]
    exact ⟨hcount, pqFront_push_drained h _, rfl⟩
  · exact absurd (hp.symm.trans hv) Bool.noConfusion

/-- RX_DRAIN with one record in the ring executes its symbol and is done (30_encoding.md R96). -/
theorem reaches_rxDrain_one {rest : List AgendaItem} {s : State} (h : s.agenda = .rxDrain :: rest) (hc : s.pqCount = 1) :
    Reaches s { runSymbol (classify (pqFront s)) (pqDrop s) with agenda := rest } := by
  have hpop : step s = .next (runSymbol (classify (pqFront s)) (pqDrop s)) := step_rxDrain_pop h (by rw [hc]; decide)
  exact .of_step hpop (.single (step_rxDrain_done (by simp [h]) (by simp [hc])))

/-- A falling edge with a low pending publishes a record, and the drain executes its symbol. -/
theorem fallingEdge_paired {rest : List AgendaItem} {s : State} (h : Drained (fallingEdge ++ rest) s)
    (hp : s.pendValid = true) :
    ∃ t u, Reaches s t ∧ Fallen rest t ∧ t.timeUs = s.timeUs ∧ framerView u = framerView s ∧ u.timeUs = s.timeUs
      ∧ framerView t = framerView (runSymbol (classify ⟨.low, s.pendDur, .high, durSinceEdge s⟩) u) := by
  have hd : Drained (.rxDrain :: rest) { s with agenda := .rxDrain :: rest } := ⟨h.mode, h.pqCount, h.pqHead, rfl⟩
  obtain ⟨hcount, hfront, hlast⟩ := captureEdge_low_of_pending hd hp
  have hedge := step_edge (rest := .rxDrain :: rest) h.agenda h.mode
  have hframe := captureEdge_frame .low { s with agenda := .rxDrain :: rest }
  generalize captureEdge .low { s with agenda := .rxDrain :: rest } = c at *
  have hrun := reaches_rxDrain_one (s := c) (rest := rest) (by rw [hframe]) hcount
  rw [hfront] at hrun
  have htime : c.timeUs = s.timeUs := by rw [hframe]
  refine ⟨_, pqDrop c, .of_step hedge hrun, ⟨⟨?_, ?_, ?_, rfl⟩, ?_⟩, ?_, ?_, htime, rfl⟩
  · show (runSymbol _ (pqDrop c)).mode = _
    rw [runSymbol_mode, hframe]; exact h.mode
  · show (runSymbol _ (pqDrop c)).pqCount = 0
    rw [runSymbol_pqCount, pqDrop_pqCount, hcount]
  · show (runSymbol _ (pqDrop c)).pqHead < _
    rw [runSymbol_pqHead]; exact Nat.mod_lt _ (by decide)
  · show (runSymbol _ (pqDrop c)).lastEdge = (runSymbol _ (pqDrop c)).timeUs.setWidth 32
    rw [runSymbol_lastEdge, runSymbol_timeUs]; exact hlast.trans (by rw [pqDrop_timeUs, htime])
  · show (runSymbol _ (pqDrop c)).timeUs = _
    rw [runSymbol_timeUs]; exact htime
  · rw [hframe]; rfl

/-! ## Pulses -/

/-- The rest of a pulse whose falling edge has been drained: `lo` µs low, then `hi` µs high. -/
def lowThenHigh (lo hi : Nat) : List AgendaItem := [.wait lo, line (.edge .high), .wait hi]

/-- A pulse has passed: its low is pending, and the line has been high for `hi` µs. -/
structure Pulsed (lo hi : Nat) (rest : List AgendaItem) (s : State) : Prop extends Drained rest s where
  pendValid : s.pendValid = true
  pendDur : s.pendDur = BitVec.ofNat 32 lo
  dur : durSinceEdge s = BitVec.ofNat 32 hi

/-- T after an advance that stays inside 64 bits. -/
theorem timeUs_add_toNat {now : Time} {n : Nat} (h : now.toNat + n < 2 ^ 64) :
    (now + BitVec.ofNat 64 n).toNat = now.toNat + n := by
  rw [BitVec.toNat_add, BitVec.toNat_ofNat]; omega

/-- The time since an edge is what T has advanced by, modulo 2^32 (40_capture.md R111). -/
theorem durSinceEdge_of_advance {s : State} {edge : Time} {n : Nat} (hedge : s.lastEdge = edge.setWidth 32)
    (hnow : s.timeUs = edge + BitVec.ofNat 64 n) : durSinceEdge s = BitVec.ofNat 32 n := by
  rw [durSinceEdge, hedge, hnow, BitVec.setWidth_add _ _ (by decide), BitVec.add_comm, BitVec.add_sub_cancel,
    BitVec.setWidth_ofNat_of_le (by decide)]

/-- `s` after a wait of `n` µs; `rest` is left on the agenda. -/
def waited (n : Nat) (rest : List AgendaItem) (s : State) : State :=
  { s with agenda := rest, timeUs := s.timeUs + BitVec.ofNat 64 n }

/-- `s` after a rising edge: the low that has ended is pending (40_capture.md R112); `rest` is left on the agenda. -/
def risen (rest : List AgendaItem) (s : State) : State :=
  { s with agenda := rest, lastEdge := s.timeUs.setWidth 32, pendDur := durSinceEdge s, pendValid := true }

/-- WAIT in Receive mode (30_encoding.md R96). -/
theorem step_wait {s : State} {n : Nat} {rest : List AgendaItem} (h : s.agenda = .wait n :: rest) (hm : s.mode = .receive)
    (hn : 0 < n) (ht : s.timeUs.toNat + n < 2 ^ 64) : step s = .next (waited n rest s) := by
  rw [waitAdvancesTime s n rest h hn ht fun htx => mode_exclusive hm htx, waited, BitVec.ofNat_add, BitVec.ofNat_toNat,
    BitVec.setWidth_eq]

theorem step_risingEdge {s : State} {rest : List AgendaItem} (h : s.agenda = line (.edge .high) :: rest)
    (hm : s.mode = .receive) : step s = .next (risen rest s) := step_edge h hm

/-- The low and the high of a pulse are timed (40_capture.md R110–R112). -/
theorem Fallen.lowThenHigh {lo hi : Nat} {rest : List AgendaItem} {s : State} (h : Fallen (lowThenHigh lo hi ++ rest) s)
    (hlo : 0 < lo) (hhi : 0 < hi) (ht : s.timeUs.toNat + lo + hi < 2 ^ 64) :
    ∃ t, Reaches s t ∧ Pulsed lo hi rest t ∧ t.timeUs.toNat = s.timeUs.toNat + lo + hi ∧ framerView t = framerView s := by
  let low := waited lo (line (.edge .high) :: .wait hi :: rest) s
  let high := risen (.wait hi :: rest) low
  have hlow : high.timeUs.toNat = s.timeUs.toNat + lo := timeUs_add_toNat (by omega)
  refine ⟨waited hi rest high, ?_, ⟨⟨h.mode, h.pqCount, h.pqHead, rfl⟩, rfl, ?_, ?_⟩, ?_, rfl⟩
  · exact .of_step (step_wait h.agenda h.mode hlo (by omega)) (.of_step (step_risingEdge (s := low) rfl h.mode)
      (.single (step_wait (s := high) rfl h.mode hhi (by omega))))
  · exact durSinceEdge_of_advance (s := low) h.lastEdge rfl
  · exact durSinceEdge_of_advance (s := waited hi rest high) rfl rfl
  · exact (timeUs_add_toNat (by omega)).trans (by rw [hlow])

/-- A pulse, from a falling edge to the next one (30_encoding.md R96). -/
def pulse (lo hi : Nat) : List AgendaItem := lowThenHigh lo hi ++ fallingEdge

/-- A pulse and the falling edge behind it execute the symbol of the pulse's record (40_capture.md R113, 41_framer.md R144). -/
theorem Fallen.pulse {lo hi : Nat} {rest : List AgendaItem} {s : State} (h : Fallen (pulse lo hi ++ rest) s)
    (hlo : 0 < lo) (hhi : 0 < hi) (ht : s.timeUs.toNat + lo + hi < 2 ^ 64) :
    ∃ t u, Reaches s t ∧ Fallen rest t ∧ t.timeUs.toNat = s.timeUs.toNat + lo + hi ∧ framerView u = framerView s
      ∧ u.timeUs = t.timeUs
      ∧ framerView t =
          framerView (runSymbol (classify ⟨.low, BitVec.ofNat 32 lo, .high, BitVec.ofNat 32 hi⟩) u) := by
  rw [Machine.pulse, List.append_assoc] at h
  obtain ⟨v, hsv, hv, hvt, hview⟩ := h.lowThenHigh hlo hhi ht
  obtain ⟨t, u, hvt', hfallen, htime, hview', hutime, hsym⟩ := fallingEdge_paired hv.toDrained hv.pendValid
  rw [hv.pendDur, hv.dur] at hsym
  exact ⟨t, u, hsv.trans hvt', hfallen, by rw [htime, hvt], hview'.trans hview, by rw [hutime, htime], hsym⟩

/-- The pulse of a bit (30_encoding.md R80, R96). -/
def bitPulse (b : Bool) : List AgendaItem := pulse 1000 (if b then 3000 else 1000)

/-- The symbol of a bit's nominal record is that bit (30_encoding.md R85). -/
theorem runSymbol_bitPulse (b : Bool) (s : State) :
    runSymbol (classify ⟨.low, BitVec.ofNat 32 1000, .high, BitVec.ofNat 32 (if b then 3000 else 1000)⟩) s = symBit b s := by
  have hsym : classify ⟨.low, BitVec.ofNat 32 1000, .high, BitVec.ofNat 32 (if b then 3000 else 1000)⟩ =
      if b then .bit1 else .bit0 := by cases b <;> decide
  rw [hsym]; cases b <;> rfl

/-- The pulses of some bits act on the framer as these bits, and take at most 4000 µs each. -/
theorem Fallen.bits (bits : List Bool) {rest : List AgendaItem} {s : State} (h : Fallen (bits.flatMap bitPulse ++ rest) s)
    (ht : s.timeUs.toNat + 4000 * bits.length < 2 ^ 64) :
    ∃ t, Reaches s t ∧ Fallen rest t ∧ t.timeUs.toNat ≤ s.timeUs.toNat + 4000 * bits.length
      ∧ framerView t = (framerView s).bits bits := by
  induction bits generalizing s with
  | nil => exact ⟨s, .refl s, h, le_rfl, rfl⟩
  | cons b bits ih =>
    rw [List.flatMap_cons, List.append_assoc, bitPulse] at h
    rw [List.length_cons] at ht ⊢
    have hle : (if b then 3000 else 1000) ≤ 3000 := by cases b <;> decide
    have hpos : 0 < (if b then 3000 else 1000) := by cases b <;> decide
    obtain ⟨v, u, hsv, hv, htime, hview, -, hsym⟩ := h.pulse (by decide) hpos (by omega)
    obtain ⟨t, hvt, hfallen, hle', hbits⟩ := ih hv (by omega)
    refine ⟨t, hsv.trans hvt, hfallen, by omega, ?_⟩
    rw [hbits, hsym, runSymbol_bitPulse, framerView_symBit, hview]; rfl

/-! ## The agenda of a frame (30_encoding.md R96), cut at its falling edges -/

/-- Pulses that each begin with the same items, cut behind those items. -/
theorem flatMap_append_shift {α β : Type} (head : List β) (tail : α → List β) (l : List α) :
    (l.flatMap fun a => head ++ tail a) ++ head = head ++ l.flatMap fun a => tail a ++ head := by
  induction l with
  | nil => simp
  | cons a l ih => rw [List.flatMap_cons, List.append_assoc, ih, List.flatMap_cons]; simp only [List.append_assoc]

theorem busFrameC_eq (pattern : List Byte) (rest : List AgendaItem) : busFrameC pattern ++ (.wait 50000 :: rest) =
    fallingEdge ++ (pulse 9000 5000 ++ ((bitsOf pattern).flatMap bitPulse ++ (lowThenHigh 1000 50000 ++ rest))) := by
  have hbits : pattern.flatMap busByteC =
      (bitsOf pattern).flatMap fun b => fallingEdge ++ lowThenHigh 1000 (if b then 3000 else 1000) := by
    rw [bitsOf, List.flatMap_assoc]
    exact List.flatMap_congr fun b _ => by rw [List.flatMap_map]; rfl
  have hpre : busPre = fallingEdge ++ lowThenHigh 9000 5000 := rfl
  have hend : busEnd ++ (.wait 50000 :: rest) = fallingEdge ++ (lowThenHigh 1000 50000 ++ rest) := rfl
  have hshift := flatMap_append_shift fallingEdge (fun b => lowThenHigh 1000 (if b then 3000 else 1000)) (bitsOf pattern)
  calc busFrameC pattern ++ (.wait 50000 :: rest)
      = fallingEdge ++ (lowThenHigh 9000 5000
          ++ (((bitsOf pattern).flatMap fun b => fallingEdge ++ lowThenHigh 1000 (if b then 3000 else 1000)) ++ fallingEdge
            ++ (lowThenHigh 1000 50000 ++ rest))) := by
        rw [busFrameC, hbits, hpre, List.append_assoc, hend]; simp only [List.append_assoc]
    _ = _ := by rw [hshift, pulse]; simp only [List.append_assoc]; rfl

theorem busFrameH_eq (bytes : List Byte) : busFrameH bytes = busFrameC (bytes.map fun b => ~~~b) := by
  rw [busFrameH, busFrameC, List.flatMap_map]; rfl

/-! ## The delivery of a frame -/

/-- The record that the first falling edge of a frame publishes, if it publishes one, is an IDLE, which an Idle framer ignores
(41_framer.md R148). -/
theorem fallingEdge_ready {rest : List AgendaItem} {s : State} (h : Drained (fallingEdge ++ rest) s) (hs : s.frStarted = false)
    (hp : s.pendValid = false ∨ 50000 ≤ (durSinceEdge s).toNat) :
    ∃ t, Reaches s t ∧ Fallen rest t ∧ t.timeUs = s.timeUs ∧ framerView t = framerView s := by
  cases hv : s.pendValid with
  | false => exact fallingEdge_unpaired h hv
  | true =>
    obtain ⟨t, u, hreach, hfallen, htime, hview, -, hsym⟩ := fallingEdge_paired h hv
    have hidle : classify ⟨.low, s.pendDur, .high, durSinceEdge s⟩ = .idle :=
      (classifyWindows ⟨.low, s.pendDur, .high, durSinceEdge s⟩).1.2
        ⟨⟨rfl, rfl⟩, hp.resolve_left (by rw [hv]; exact Bool.noConfusion)⟩
    have hu : u.frStarted = false := (congrArg FramerView.started hview).trans hs
    refine ⟨t, hreach, hfallen, htime, ?_⟩
    rw [hsym, hidle, runSymbol, symIdle, if_neg (by rw [hu]; exact Bool.noConfusion), hview]

/-- The wire pattern of a frame fills the candidate with it, which the closing pulse leaves waiting for its end. -/
theorem reaches_candidate {pattern : List Byte} (hle : pattern.length ≤ 12) {rest : List AgendaItem} {s : State}
    (h : Drained (busFrameC pattern ++ (.wait 50000 :: rest)) s) (hs : s.frStarted = false)
    (hp : s.pendValid = false ∨ 50000 ≤ (durSinceEdge s).toNat) (ht : s.timeUs.toNat + 1000000 < 2 ^ 64) :
    ∃ t u, Reaches s t ∧ Pulsed 1000 50000 rest t ∧ framerView t = framerView (withBytes pattern (frStart u))
      ∧ u.timeUs.toNat = s.timeUs.toNat + 14000 ∧ u.history.map Stamped.event = s.history.map Stamped.event := by
  rw [busFrameC_eq] at h
  obtain ⟨s1, h01, hs1, htime1, hview1⟩ := fallingEdge_ready h hs hp
  obtain ⟨s2, u, h12, hs2, htime2, hview, hutime, hpre⟩ := hs1.pulse (by decide) (by decide) (by rw [htime1]; omega)
  have hlen := bitsOf_length pattern
  obtain ⟨s3, h23, hs3, htime3, hbits⟩ := hs2.bits (bitsOf pattern) (by rw [htime2, htime1]; omega)
  obtain ⟨t, h3t, hpulsed, -, hview3⟩ := hs3.lowThenHigh (by decide) (by decide) (by rw [htime2, htime1] at htime3; omega)
  have hu : framerView u = framerView s := hview.trans hview1
  have hstart : framerView s2 = framerView (frStart u) := by
    have hsym : classify ⟨.low, BitVec.ofNat 32 9000, .high, BitVec.ofNat 32 5000⟩ = .preamble := by decide
    have hidle : u.frStarted = false := (congrArg FramerView.started hu).trans hs
    rw [hpre, hsym, runSymbol, symPreamble, if_neg (by rw [hidle]; exact Bool.noConfusion)]
  refine ⟨t, u, (h01.trans h12).trans (h23.trans h3t), hpulsed, ?_, ?_, congrArg FramerView.events hu⟩
  · rw [hview3, hbits, hstart, framerView_execAll (execAll_bitsOf hle u)]
  · rw [hutime, htime2, htime1]

/-- RX_IDLE_CHECK ends the candidate 50 000 µs after its last edge (41_framer.md R150). -/
theorem step_rxIdleCheck_ends {lo : Nat} {rest : List AgendaItem} {s : State}
    (h : Pulsed lo 50000 (line .rxIdleCheck :: rest) s) (hs : s.frStarted = true) :
    step s = .next (endFrame .synthIdle { s with agenda := rest }) := by
  have hen : rxIdleCheckEnabled { s with agenda := rest } = true := decide_eq_true h.pqCount
  have hdur : Config.rxIdleUs ≤ (durSinceEdge { s with agenda := rest }).toNat := by
    show _ ≤ (durSinceEdge s).toNat
    rw [h.dur]; decide
  rw [step_line h.agenda rfl, exec_eq, after, if_pos hen, idleCheck, if_pos ⟨hs, hdur⟩, symIdle, if_pos hs]

/-- Settles O42: the pulses fill the candidate with the wire pattern, and RX_IDLE_CHECK delivers its frame. -/
theorem framesOnTheWireAreDelivered : Obligations.FramesOnTheWireAreDelivered := by
  intro s len bytes v h hsum hmode hs hcount hhead hp ht hagenda
  have hle : (wirePattern v bytes).length ≤ 12 := by rw [wirePattern_length, h]; cases len <;> decide
  have hdrained : Drained (busFrameC (wirePattern v bytes) ++ [.wait 50000, line .rxIdleCheck]) s := by
    refine ⟨hmode, hcount, hhead, hagenda.trans ?_⟩
    cases v with
    | controller => rfl
    | heater => dsimp only; rw [busFrameH_eq, wirePattern]
  obtain ⟨t, u, hreach, hpulsed, hview, hutime, hevents⟩ := reaches_candidate hle hdrained hs hp ht
  obtain ⟨hbuf, hlen, -, -, hstarted, hstart, hhist⟩ := FramerView.mk.inj hview
  have hms : t.frTimeMs = BitVec.ofNat 64 ((s.timeUs.toNat + 14000) / 1000) := by
    rw [hstart, ← BitVec.toNat_inj, BitVec.toNat_ofNat]
    refine (nowMs_toNat u).trans ?_
    rw [hutime]; omega
  have hend := step_rxIdleCheck_ends hpulsed hstarted
  rw [endFrame_withBytes .synthIdle v h hsum (s := { t with agenda := [] }) hbuf hlen] at hend
  obtain ⟨k, hk⟩ := hreach.trans (.single hend)
  rw [takeOrigin_frame] at hk
  refine ⟨k, _, hk, rfl, ?_, hpulsed.mode, rfl, hpulsed.pqCount, hpulsed.pqHead, hpulsed.pendValid,
    congrArg BitVec.toNat hpulsed.dur⟩
  show (t.history ++ [(⟨t.timeUs, .frame len bytes v.source t.frTimeMs⟩ : Stamped)]).map Stamped.event = _
  rw [List.map_append, hhist, hms, ← hevents]; rfl

end Sys2Proof.Machine
end

section
/-! The capture agent (40_capture.md): what an EDGE times, the record a falling edge publishes, and what CAP may write. -/

namespace Sys2Proof.Machine

open Sys2Proof

/-! ## The half-period that has ended (R111) -/

/-- `DUR(T)` as a number: 2^32 is added before `last_edge` is taken off, so that no difference is negative. -/
theorem durSinceEdge_toNat (s : State) :
    (durSinceEdge s).toNat = (s.timeUs.toNat % 2 ^ 32 + 2 ^ 32 - s.lastEdge.toNat) % 2 ^ 32 := by
  have hedge := s.lastEdge.isLt
  rw [durSinceEdge, BitVec.toNat_sub, BitVec.toNat_setWidth]
  congr 1
  omega

/-- A word with the value of `DUR(T)` is the duration the block computes. -/
theorem eq_durSinceEdge {s : State} {d : Word}
    (hd : d.toNat = (s.timeUs.toNat % 2 ^ 32 + 2 ^ 32 - s.lastEdge.toNat) % 2 ^ 32) : d = durSinceEdge s :=
  BitVec.eq_of_toNat_eq (hd.trans (durSinceEdge_toNat s).symm)

/-! ## EDGE, by the mode, its level and the pending low (R110–R114) -/

/-- The two cases of EDGE: Transmit mode ignores it, Receive mode captures it (R110, R114). -/
theorem exec_edge_cases (l : Level) (s : State) :
    (s.mode = .transmit ∧ exec (.edge l) s = .next s)
    ∨ (s.mode = .receive ∧ exec (.edge l) s = .next (captureEdge l s)) := by
  cases h : s.mode with
  | transmit => exact .inl ⟨rfl, exec_edge_of_transmit h l⟩
  | receive => exact .inr ⟨rfl, exec_edge h l⟩

/-- A falling edge with no low pending discards the high (R113). -/
theorem captureEdge_low_unpaired {s : State} (h : s.pendValid = false) :
    captureEdge .low s = { s with lastEdge := s.timeUs.setWidth 32 } := by
  rcases captureEdge_cases .low s with ⟨hl, -⟩ | ⟨-, hv, -⟩ | ⟨-, -, he⟩
  · cases hl
  · exact absurd (h.symm.trans hv) Bool.false_ne_true
  · exact he

/-- A falling edge with a low pending pushes the record of both half-periods (R113). -/
theorem captureEdge_low_paired {s : State} (h : s.pendValid = true) :
    captureEdge .low s = { s with
      pqBuf := (pqPush ⟨.low, s.pendDur, .high, durSinceEdge s⟩ s).pqBuf
      pqHead := (pqPush ⟨.low, s.pendDur, .high, durSinceEdge s⟩ s).pqHead
      pqCount := (pqPush ⟨.low, s.pendDur, .high, durSinceEdge s⟩ s).pqCount
      lastEdge := s.timeUs.setWidth 32, pendDur := 0, pendValid := false } := by
  rcases captureEdge_cases .low s with ⟨hl, -⟩ | ⟨-, -, he⟩ | ⟨-, hv, -⟩
  · cases hl
  · exact he
  · exact absurd (hv.symm.trans h) Bool.false_ne_true

/-- Settles O29: the mode, the level and the pending low decide which case of EDGE applies. -/
theorem edgeTimesTheHalfPeriod : Obligations.EdgeTimesTheHalfPeriod := by
  intro s d hd
  obtain rfl := eq_durSinceEdge hd
  refine ⟨fun l htx => exec_edge_of_transmit htx l, fun hr => exec_edge hr .high, fun hr hv => ?_⟩
  rw [exec_edge hr, captureEdge_low_unpaired hv]

/-- Settles O30: the edge is a push of the record (20_memory.md R63), of which the ring's laws give contents and count. -/
theorem fallingEdgePublishesTheRecord : Obligations.FallingEdgePublishesTheRecord := by
  intro s d hd hr hv hcount
  obtain rfl := eq_durSinceEdge hd
  have hcontents := pqContents_push ⟨.low, s.pendDur, .high, durSinceEdge s⟩ hcount
  have hpushed := pqPush_pqCount ⟨.low, s.pendDur, .high, durSinceEdge s⟩ hcount
  rw [exec_edge hr, captureEdge_low_paired hv]
  exact ⟨_, rfl, (pqContents_congr rfl rfl rfl).trans hcontents, hpushed, rfl⟩

/-! ## The producer side of the pulse ring (R120) -/

/-- From `s` to `t` at most the producer side of the ring has moved: the entry behind the newest record and the count, or,
where the ring is full, that entry and the head. -/
structure ProducerSideOnly (s t : State) : Prop where
  entries : ∀ i, i ≠ (s.pqHead + s.pqCount) % Config.pqCap → pqEntry t i = pqEntry s i
  room : s.pqCount ≠ Config.pqCap → t.pqHead = s.pqHead ∧ (t.pqCount = s.pqCount ∨ t.pqCount = s.pqCount + 1)
  full : s.pqCount = Config.pqCap →
    t.pqCount = Config.pqCap ∧ (t.pqHead = s.pqHead ∨ t.pqHead = (s.pqHead + 1) % Config.pqCap)

/-- A ring left alone. -/
theorem ProducerSideOnly.of_same_ring {s t : State} (hbuf : t.pqBuf = s.pqBuf) (hhead : t.pqHead = s.pqHead)
    (hcount : t.pqCount = s.pqCount) : ProducerSideOnly s t where
  entries i _ := by rw [pqEntry, hbuf, pqEntry]
  room _ := ⟨hhead, .inl hcount⟩
  full hfull := ⟨hcount.trans hfull, .inl hhead⟩

/-- A store leaves every other entry of the ring alone (20_memory.md R63). -/
theorem pqEntry_store_other (rec : PulseRecord) {s : State} {i : Nat} (h : i ≠ (s.pqHead + s.pqCount) % Config.pqCap) :
    pqEntry (pqStore rec s) i = pqEntry s i := by
  rw [pqEntry, pqStore_pqBuf, slotRead_slotWrite_other h, pqEntry]

/-- The drop of the oldest record does not move the place behind the newest one (20_memory.md R63). -/
theorem pqDrop_tail {s : State} (h : 0 < s.pqCount) :
    ((pqDrop s).pqHead + (pqDrop s).pqCount) % Config.pqCap = (s.pqHead + s.pqCount) % Config.pqCap := by
  rw [pqDrop_pqHead, pqDrop_pqCount, ring_index_succ, Nat.sub_add_cancel h]

/-- A push moves the producer side alone: a full ring loses its oldest record to the new one (20_memory.md R63). -/
theorem pqPush_producerSideOnly (rec : PulseRecord) (s : State) : ProducerSideOnly s (pqPush rec s) := by
  rcases pqMakeRoom_cases s with ⟨hfull, hr⟩ | ⟨hroom, hr⟩ <;> rw [pqPush, hr]
  · have hcount : 0 < s.pqCount := by rw [hfull]; decide
    refine ⟨fun i hi => ?_, fun hroom => absurd hfull hroom, fun _ => ⟨?_, .inr rfl⟩⟩
    · rw [pqEntry_store_other rec (by rwa [pqDrop_tail hcount]), pqEntry_drop]
    · rw [pqStore_pqCount, pqDrop_pqCount, Nat.sub_add_cancel hcount, hfull]
  · exact ⟨fun i hi => pqEntry_store_other rec hi, fun _ => ⟨rfl, .inr rfl⟩, fun hfull => absurd hfull hroom⟩

/-- An EDGE in Receive mode leaves the ring alone or pushes one record. -/
theorem captureEdge_producerSideOnly (l : Level) (s : State) : ProducerSideOnly s (captureEdge l s) := by
  rcases captureEdge_cases l s with ⟨-, h⟩ | ⟨-, -, h⟩ | ⟨-, -, h⟩ <;> rw [h]
  · exact .of_same_ring rfl rfl rfl
  · obtain ⟨entries, room, full⟩ := pqPush_producerSideOnly ⟨.low, s.pendDur, .high, durSinceEdge s⟩ s
    exact ⟨entries, room, full⟩
  · exact .of_same_ring rfl rfl rfl

/-- Settles O23, by the mode: in Transmit mode an EDGE writes nothing (R114), in Receive mode it captures. -/
theorem captureWritesOnlyItsOwnState : Obligations.CaptureWritesOnlyItsOwnState := by
  intro l s
  rcases exec_edge_cases l s with ⟨-, h⟩ | ⟨-, h⟩
  · obtain ⟨entries, room, full⟩ := ProducerSideOnly.of_same_ring (s := s) (t := s) rfl rfl rfl
    exact ⟨s, h, entries, room, full, rfl⟩
  · obtain ⟨entries, room, full⟩ := captureEdge_producerSideOnly l s
    exact ⟨captureEdge l s, h, entries, room, full, captureEdge_frame l s⟩

end Sys2Proof.Machine
end

section
/-! The symbols of the framer (41_framer.md R140–R154), by whether a candidate is held: what a bit adds, what ends the candidate,
and that an Idle framer ignores further idles. -/

namespace Sys2Proof.Machine

open Sys2Proof Sys2Proof.Safety

/-! ## Bits (R141) -/

/-- While Idle a bit symbol is ignored (R146, R147). -/
theorem exec_bitInstr_of_idle (b : Bool) {s : State} (hs : s.frStarted = false) : exec (bitInstr b) s = .next s := by
  rw [exec_bitInstr, symBit, if_neg (by rw [hs]; exact Bool.false_ne_true)]

/-- The last bit of a thirteenth byte discards the candidate (R141). -/
theorem exec_bitInstr_overlong (b : Bool) {s : State} (hs : s.frStarted = true) (hb : s.frBidx = 7) (hl : s.frLen = 12) :
    exec (bitInstr b) s =
      .next (frReset { s with history := s.history ++ [⟨s.timeUs, .diag .overlong .bit 12⟩] }) := by
  rw [exec_bitInstr, symBit, if_pos hs]
  rcases appendBit_cases b s with ⟨h7, -⟩ | ⟨-, -, he⟩ | ⟨-, h12, -⟩
  · exact absurd hb h7
  · rw [he]
  · exact absurd hl h12

/-- Settles O34: Idle; inside a byte; the last bit of a byte with room for it; and without. -/
theorem bitSymbolsAccumulate : Obligations.BitSymbolsAccumulate := by
  rintro s b cur rfl
  exact ⟨exec_bitInstr_of_idle b, exec_bitInstr_inside b, exec_bitInstr_last b, exec_bitInstr_overlong b⟩

/-! ## The end of a candidate (R143) -/

/-- While Idle an IDLE is ignored (R148). -/
theorem symIdle_of_idle (trig : Trigger) {s : State} (hs : s.frStarted = false) : symIdle trig s = s := by
  rw [symIdle, if_neg (by rw [hs]; exact Bool.false_ne_true)]

/-- While Receiving an IDLE is a frame end (R148). -/
theorem symIdle_of_receiving (trig : Trigger) {s : State} (hs : s.frStarted = true) : symIdle trig s = endFrame trig s := by
  rw [symIdle, if_pos hs]

/-- A frame end leaves the framer Idle (R143). -/
@[simp] theorem endFrame_frStarted (trig : Trigger) (s : State) : (endFrame trig s).frStarted = false := by
  obtain ⟨e, ck, lc, lh, h, -⟩ := endFrame_form trig s
  rw [h, frReset_frStarted]

/-- Where the framer is Idle, or a quantity is below its bound, the joint test of R149 and R150 fails. -/
theorem not_receiving_and_le {s : State} {bound n : Nat} (h : s.frStarted = false ∨ n < bound) :
    ¬(s.frStarted = true ∧ bound ≤ n) := by
  rwa [not_and_or, Bool.not_eq_true, Nat.not_le]

/-- With a candidate held and the idle time passed, RX_IDLE_CHECK's body is a frame end (R150). -/
theorem idleCheck_of_due {s : State} (hs : s.frStarted = true) (hd : 50000 ≤ (durSinceEdge s).toNat) :
    idleCheck s = endFrame .synthIdle s := by
  rw [idleCheck, if_pos ⟨hs, hd⟩, symIdle_of_receiving _ hs]

/-- While Idle or before the idle time has passed, RX_IDLE_CHECK's body does nothing (R150). -/
theorem idleCheck_of_not_due {s : State} (h : s.frStarted = false ∨ (durSinceEdge s).toNat < 50000) : idleCheck s = s :=
  if_neg (not_receiving_and_le h)

/-- RX_IDLE_CHECK with the ring empty runs its body (R150). -/
theorem exec_rxIdleCheck {s : State} (h : s.pqCount = 0) : exec .rxIdleCheck s = .next (idleCheck s) := by
  rw [exec_eq, after, if_pos (by rw [rxIdleCheckEnabled, h]; rfl)]

/-- Settles O37: the candidate, if there is one, is ended by END_FRAME, whose outcomes `endFrame_ends` gives. -/
theorem idleEndsTheFrame : Obligations.IdleEndsTheFrame := by
  intro s
  rw [exec_eq, after]
  refine ⟨fun hs => ?_, fun hs => ⟨endFrame .idle s, ?_, endFrame_ends .idle s⟩⟩
  · rw [symIdle_of_idle _ hs]
  · rw [symIdle_of_receiving _ hs]

/-- Settles O38: RX_IDLE_CHECK compares DUR(T) with the idle time. -/
theorem idleCheckEndsTheFrame : Obligations.IdleCheckEndsTheFrame := by
  intro s d hd hempty
  rw [← durSinceEdge_toNat] at hd
  subst hd
  rw [exec_rxIdleCheck hempty]
  refine ⟨fun hs hdue => ⟨_, rfl, ?_⟩, fun hnot => ?_⟩
  · rw [idleCheck_of_due hs hdue]; exact endFrame_ends .synthIdle s
  · rw [idleCheck_of_not_due hnot]

/-- Settles O39: with nine bytes or more SYM_INVALID discards the candidate, otherwise its test fails. -/
theorem invalidRecordDiscardsFromNineBytes : Obligations.InvalidRecordDiscardsFromNineBytes := by
  intro s
  rw [exec_eq, after, symInvalid]
  refine ⟨fun hs hlen => ?_, fun hskip => ?_⟩
  · rw [if_pos ⟨hs, hlen⟩]; rfl
  · exact congrArg _ (if_neg (not_receiving_and_le hskip))

/-! ## The start of a candidate (R142, R145) -/

/-- PREAMBLE while Receiving ends one candidate and starts the next (R145). -/
theorem exec_preamble_of_receiving {s : State} (hs : s.frStarted = true) :
    exec .preamble s = .next (frStart (endFrame .preamble s)) := by
  rw [exec_eq, after, symPreamble, if_pos hs]

/-- Settles O36, by whether a candidate is held; its end does not move T, so the new frame time is that of the symbol. -/
theorem preambleStartsAFrame : Obligations.PreambleStartsAFrame := by
  intro s
  cases hs : s.frStarted with
  | false => exact ⟨_, s, nofun, fun _ => rfl, exec_preamble_of_idle hs, rfl⟩
  | true =>
    refine ⟨_, endFrame .preamble s, fun _ => endFrame_ends .preamble s, nofun, exec_preamble_of_receiving hs, ?_⟩
    rw [← (endFrame_sameBurst .preamble s).timeUs]; rfl

/-! ## Further idles (R154) -/

/-- Operations that each answer the state they start from answer it together. -/
theorem execAll_of_fixed {l : List Instr} {s : State} (h : ∀ i ∈ l, exec i s = .next s) : execAll l s = .next s := by
  induction l with
  | nil => rfl
  | cons i l ih =>
    rw [execAll, h i List.mem_cons_self]
    exact ih fun j hj => h j (List.mem_cons_of_mem i hj)

/-- An IDLE, of a record or synthesized, leaves the framer Idle (R148). -/
theorem symIdle_frStarted (trig : Trigger) (s : State) : (symIdle trig s).frStarted = false := by
  cases hs : s.frStarted with
  | false => rw [symIdle_of_idle _ hs, hs]
  | true => rw [symIdle_of_receiving _ hs, endFrame_frStarted]

/-- Once the idle time has passed, RX_IDLE_CHECK leaves the framer Idle (R150). -/
theorem idleCheck_frStarted {s : State} (hd : 50000 ≤ (durSinceEdge s).toNat) : (idleCheck s).frStarted = false := by
  cases hs : s.frStarted with
  | false => rw [idleCheck_of_not_due (.inl hs), hs]
  | true => rw [idleCheck_of_due hs hd, endFrame_frStarted]

/-- An Idle framer ignores RX_IDLE_CHECK, whether or not it is enabled (R150, 00_scope.md R13). -/
theorem exec_rxIdleCheck_of_idle {s : State} (hs : s.frStarted = false) : exec .rxIdleCheck s = .next s := by
  rcases Nat.eq_zero_or_pos s.pqCount with hempty | hrecord
  · rw [exec_rxIdleCheck hempty, idleCheck_of_not_due (.inl hs)]
  · exact exec_of_not_enabled ((enabled_rxIdleCheck_eq_false_iff s).2 hrecord)

/-- Settles O40: every idle leaves the framer Idle, and on an Idle framer each further one is a no-op. -/
theorem secondIdleIsANoOp : Obligations.SecondIdleIsANoOp := by
  intro s t h
  have hidle : t.frStarted = false := by
    rcases h with h | ⟨hempty, hd, h⟩
    · rw [exec_next h]; exact symIdle_frStarted .idle s
    · rw [exec_rxIdleCheck hempty] at h
      cases h; exact idleCheck_frStarted hd
  refine ⟨hidle, fun idles hidles => execAll_of_fixed fun i hi => ?_⟩
  rcases hidles i hi with rfl | rfl
  · rw [exec_eq, after, symIdle_of_idle _ hidle]
  · exact exec_rxIdleCheck_of_idle hidle

end Sys2Proof.Machine
end

section
/-! The drain of the pulse ring (41_framer.md R152): only a captured falling edge adds a record, and every RX_POP that is taken
removes one, so the count of records measures the way to the empty ring. -/

namespace Sys2Proof.Machine

open Sys2Proof Sys2Proof.Safety

/-- Only a falling edge in Receive mode raises the count of records (40_capture.md R113, R114). -/
theorem after_pqCount_le (i : Instr) {s : State} (h : s.mode = .receive → i ≠ .edge .low) :
    (after i s).pqCount ≤ s.pqCount := by
  apply after_induction (P := fun t => t.pqCount ≤ s.pqCount) i s
  case held => exact le_rfl
  case edge =>
    intro l hi hr
    rcases captureEdge_cases l s with ⟨-, he⟩ | ⟨rfl, -⟩ | ⟨-, -, he⟩
    · rw [he]
    · exact absurd hi (h hr)
    · rw [he]
  case pop => intro _ _ sym; rw [runSymbol_pqCount]; exact Nat.sub_le _ _
  case idleEnd => intro _ _; obtain ⟨e, ck, lc, lh, he, -⟩ := endFrame_form .synthIdle s; rw [he]; exact le_rfl
  case enqueue =>
    intro len pkt _
    obtain ⟨⟨-, hcount⟩, -⟩ := enqueuePacket_quiet len pkt s
    exact hcount
  case tick => intro _ _; rw [schedulerTick_frame]
  case segment => intros; exact le_rfl
  case burstEnd => intros; exact le_rfl
  case read => intros; exact le_rfl
  case write => intros; exact le_rfl
  case reset => intros; exact Nat.zero_le _
  case illegal => intros; exact le_rfl
  case symbol => intro sym _; rw [runSymbol_pqCount]

/-- A step that captures no falling edge does not raise the count. -/
theorem step_pqCount_le {s t : State} (h : s.mode = .receive → offered s ≠ some (.edge .low)) (hs : step s = .next t) :
    t.pqCount ≤ s.pqCount := by
  cases ho : offered s with
  | none => rw [step_no_offer ho hs]
  | some i =>
    obtain ⟨todo, hstep⟩ := step_offered ho
    rw [exec_next (hstep.symm.trans hs)]
    exact after_pqCount_le i (s := { s with agenda := todo }) fun hr hi => h hr (hi ▸ ho)

/-- A step that takes RX_POP lowers the count (R144). -/
theorem step_pqCount_lt_of_takes {s t : State} (h : takes .rxPop s = true) (hs : step s = .next t) :
    t.pqCount < s.pqCount := by
  rw [takes, Bool.and_eq_true, decide_eq_true_eq, enabled, rxPopEnabled, decide_eq_true_eq] at h
  obtain ⟨ho, hcount⟩ := h
  obtain ⟨todo, hstep⟩ := step_offered ho
  rw [hstep, exec_rxPop (s := { s with agenda := todo }) hcount] at hs
  cases hs
  rw [popRecord, runSymbol_pqCount]
  exact Nat.sub_lt hcount Nat.one_pos

/-- From moment `n` of the run on, no falling edge is captured. -/
def NoFallingEdgeFrom (run : Nat → State) (n : Nat) : Prop :=
  ∀ m, n ≤ m → (run m).mode = .receive → offered (run m) ≠ some (.edge .low)

theorem NoFallingEdgeFrom.mono {run : Nat → State} {n m : Nat} (h : NoFallingEdgeFrom run n) (hnm : n ≤ m) :
    NoFallingEdgeFrom run m := fun k hk => h k (hnm.trans hk)

/-- Between two moments of a run without falling edges the count does not rise. -/
theorem run_pqCount_le {run : Nat → State} {n m : Nat} (hrun : EndlessRun run) (hquiet : NoFallingEdgeFrom run n)
    (hnm : n ≤ m) : (run m).pqCount ≤ (run n).pqCount := by
  induction m, hnm using Nat.le_induction with
  | base => exact le_rfl
  | succ m hnm ih =>
    obtain ⟨t, todo, hs, hnext⟩ := hrun m
    rw [hnext]
    exact (step_pqCount_le (hquiet m hnm) hs).trans ih

/-- Where a run takes RX_POP the count is lower at the next moment. -/
theorem run_pqCount_lt_of_takes {run : Nat → State} {m : Nat} (hrun : EndlessRun run) (h : takes .rxPop (run m) = true) :
    (run (m + 1)).pqCount < (run m).pqCount := by
  obtain ⟨t, todo, hs, hnext⟩ := hrun m
  rw [hnext]
  exact step_pqCount_lt_of_takes (t := t) h hs

/-- Settles O33, by strong induction on the count: the next moment that fairness promises has an empty ring, or a pop, after
which fewer records are left. -/
theorem fairRunDrainsTheRing : Obligations.FairRunDrainsTheRing := by
  intro run n hrun hfair (hquiet : NoFallingEdgeFrom run n)
  induction hcount : (run n).pqCount using Nat.strong_induction_on generalizing n with
  | _ count ih =>
    obtain ⟨m, hnm, hempty | hpop⟩ := hfair n
    · exact ⟨m, hnm, hempty⟩
    · have hfewer : (run (m + 1)).pqCount < count :=
        (run_pqCount_lt_of_takes hrun hpop).trans_le ((run_pqCount_le hrun hquiet hnm).trans_eq hcount)
      have hle : n ≤ m + 1 := Nat.le_succ_of_le hnm
      obtain ⟨k, hk, hempty⟩ := ih _ hfewer (m + 1) (hquiet.mono hle) rfl
      exact ⟨k, hle.trans hk, hempty⟩

end Sys2Proof.Machine
end

section
/-! The two tests of VALIDATE as one difference (42_checksum.md R173, R179): checksum byte minus checksum. Each polarity asks for
a value of its own, and a flipped bit moves the difference by a power of two, which leads from none of these values to another. -/

namespace Sys2Proof.Machine

open Sys2Proof

/-! ## The checksum of the complement, in numbers (42_checksum.md R173) -/

/-- How many bytes CHECKSUM sums (42_checksum.md R170). -/
def summedCount : FrameLen → Nat
  | .short => 7
  | .long => 11

/-- What the checksum byte of a heater's frame is above the checksum, both as captured (42_checksum.md R173). -/
def heaterOffset : FrameLen → Nat
  | .short => 6
  | .long => 10

theorem summedBytes_length_eq_summedCount {buf : List Byte} {len : FrameLen} (h : buf.length = len.bytes) :
    (summedBytes buf len).length = summedCount len := by
  rw [summedBytes_length h]; cases len <;> rfl

/-- Of a whole candidate COMPLEMENT cuts nothing off. -/
theorem complement_eq_map {buf : List Byte} {len : FrameLen} (h : buf.length = len.bytes) :
    complement buf len = buf.map fun b => ~~~b := by
  rw [complement, List.take_of_length_le h.le]

theorem checksum_complement_toNat {buf : List Byte} {len : FrameLen} (h : buf.length = len.bytes) :
    ((checksum (complement buf len) len).toNat : Int)
      = ((summedCount len : Int) * 255 - (checksum buf len).toNat) % 256 := by
  have htotal := sum_complement (summedBytes buf len)
  rw [summedBytes_length_eq_summedCount h] at htotal
  rw [complement_eq_map h, checksum, checksum, summedBytes_map]
  simp only [BitVec.toNat_ofNat]
  omega

theorem checkByte_complement_toNat {buf : List Byte} {len : FrameLen} (h : buf.length = len.bytes) :
    (checkByte (complement buf len) len).toNat = 255 - (checkByte buf len).toNat := by
  rw [complement_eq_map h, checkByte_complement h]
  exact BitVec.toNat_not

theorem controllerTest_iff (buf : List Byte) (len : FrameLen) :
    checksum buf len = checkByte buf len ↔ (checkByte buf len).toNat = (checksum buf len).toNat := by
  rw [BitVec.toNat_inj, eq_comm]

theorem heaterTest_iff {buf : List Byte} {len : FrameLen} (h : buf.length = len.bytes) :
    checksum (complement buf len) len = checkByte (complement buf len) len
      ↔ (checkByte buf len).toNat = ((checksum buf len).toNat + heaterOffset len) % 256 := by
  have hsum := checksum_complement_toNat h
  have hbyte := checkByte_complement_toNat h
  have hS := (checksum buf len).isLt
  have hc := (checkByte buf len).isLt
  rw [← BitVec.toNat_inj]
  cases len <;> simp only [summedCount] at hsum <;> simp only [heaterOffset] <;> omega

/-- No candidate passes both tests: the heater's offset is no multiple of 256. -/
theorem tests_exclusive (buf : List Byte) (len : FrameLen) :
    ¬((checkByte buf len).toNat = (checksum buf len).toNat
      ∧ (checkByte buf len).toNat = ((checksum buf len).toNat + heaterOffset len) % 256) := by
  rintro ⟨hcontroller, hheater⟩
  have hS := (checksum buf len).isLt
  cases len <;> simp only [heaterOffset] at hheater <;> omega

theorem validate_eq_controller_iff (buf : List Byte) (len : FrameLen) :
    validate buf len = some .controller ↔ (checkByte buf len).toNat = (checksum buf len).toNat :=
  ⟨fun hv => (controllerTest_iff buf len).mp (checksum_of_validate_controller hv),
    fun hc => if_pos ((controllerTest_iff buf len).mpr hc)⟩

theorem validate_eq_heater_iff {buf : List Byte} {len : FrameLen} (h : buf.length = len.bytes) :
    validate buf len = some .heater
      ↔ (checkByte buf len).toNat = ((checksum buf len).toNat + heaterOffset len) % 256 := by
  refine ⟨fun hv => (heaterTest_iff h).mp (checksum_of_validate_heater hv), fun hheater => ?_⟩
  have hcontroller : checksum buf len ≠ checkByte buf len := fun hsum =>
    tests_exclusive buf len ⟨(controllerTest_iff buf len).mp hsum, hheater⟩
  exact (if_neg hcontroller).trans (if_pos ((heaterTest_iff h).mpr hheater))

/-- Settles O43: the two tests in numbers, one lemma per conjunct. -/
theorem polaritiesAreExclusive : Obligations.PolaritiesAreExclusive := by
  unfold Obligations.PolaritiesAreExclusive
  intro buf len h
  have hall := And.intro (checksum_complement_toNat h) <| And.intro (checkByte_complement_toNat h) <|
    And.intro (heaterTest_iff h) <| And.intro (controllerTest_iff buf len) <| And.intro (tests_exclusive buf len) <|
    And.intro (validate_eq_controller_iff buf len) (validate_eq_heater_iff h)
  cases len <;> exact hall

/-! ## The tests as one difference -/

/-- The checksum byte minus the checksum of the other bytes, modulo 256. -/
def checkGap (buf : List Byte) (len : FrameLen) : Byte := checkByte buf len - checksum buf len

/-- The difference that a frame of this origin shows as captured (42_checksum.md R173). -/
def originGap : Origin → FrameLen → Byte
  | .controller, _ => 0
  | .heater, len => BitVec.ofNat 8 (heaterOffset len)

theorem validate_eq_some_iff {buf : List Byte} {len : FrameLen} (h : buf.length = len.bytes) (v : Origin) :
    validate buf len = some v ↔ checkGap buf len = originGap v len := by
  cases v with
  | controller => rw [validate_eq_controller_iff, originGap, BitVec.toNat_inj]; exact sub_eq_zero.symm
  | heater =>
    have hgap : checkGap buf len = originGap .heater len
        ↔ checkByte buf len = checksum buf len + BitVec.ofNat 8 (heaterOffset len) := by
      rw [checkGap, originGap, sub_eq_iff_eq_add, add_comm]
    rw [validate_eq_heater_iff h, hgap, ← BitVec.toNat_inj, BitVec.toNat_add, BitVec.toNat_ofNat, Nat.add_mod_mod]

/-! ## What a changed byte does to the difference (42_checksum.md R174, R179) -/

/-- The sum may as well wrap around at every addition (42_checksum.md R170). -/
theorem ofNat_sum_toNat (bytes : List Byte) : BitVec.ofNat 8 (bytes.map BitVec.toNat).sum = bytes.sum := by
  induction bytes with
  | nil => rfl
  | cons b bytes ih =>
    rw [List.map_cons, List.sum_cons, List.sum_cons, BitVec.ofNat_add, ih, BitVec.ofNat_toNat, BitVec.setWidth_eq]

theorem sum_set_eq_add {bytes : List Byte} {i : Nat} (hi : i < bytes.length) (a : Byte) :
    (bytes.set i a).sum = bytes.sum + (a - bytes[i]) := by
  rw [List.sum_set', dif_pos hi, neg_add_eq_sub]

/-- The last byte does not enter the checksum. -/
theorem summedBytes_set_last (buf : List Byte) (len : FrameLen) (a : Byte) :
    summedBytes (buf.set (len.bytes - 1) a) len = summedBytes buf len := by
  cases len with
  | short =>
    rw [summedBytes, summedBytes, FrameLen.bytes, List.drop_set, if_neg (by decide), List.take_set]
    exact List.set_eq_of_length_le (List.length_take_le 7 _)
  | long =>
    rw [summedBytes, summedBytes, FrameLen.bytes, List.take_set]
    exact List.set_eq_of_length_le (List.length_take_le 11 _)

/-- Every byte before the last one enters the checksum once, byte 0 of a short frame excepted. -/
theorem checksum_set {buf : List Byte} {len : FrameLen} {i : Nat} (h : buf.length = len.bytes) (hi : i < len.bytes - 1)
    (hfirst : len = .short → 1 ≤ i) (a : Byte) :
    checksum (buf.set i a) len = checksum buf len + (a - buf[i]'(by omega)) := by
  rw [checksum, checksum, ofNat_sum_toNat, ofNat_sum_toNat]
  cases len with
  | short =>
    have := hfirst rfl
    simp only [FrameLen.bytes] at hi h
    rw [summedBytes, summedBytes, List.drop_set, if_neg (by omega), List.take_set, sum_set_eq_add (by simp; omega)]
    simp [Nat.sub_add_cancel this]
  | long =>
    simp only [FrameLen.bytes] at hi h
    rw [summedBytes, summedBytes, List.take_set, sum_set_eq_add (by simp; omega)]
    simp

theorem checkByte_set_of_ne {buf : List Byte} {len : FrameLen} {i : Nat} (hi : i ≠ len.bytes - 1) (a : Byte) :
    checkByte (buf.set i a) len = checkByte buf len := by
  rw [checkByte, checkByte, List.getD_eq_getElem?_getD, List.getD_eq_getElem?_getD, List.getElem?_set_ne hi]

theorem checkByte_set_last {buf : List Byte} {len : FrameLen} (hlast : len.bytes - 1 < buf.length) (a : Byte) :
    checkByte (buf.set (len.bytes - 1) a) len = a := by
  rw [checkByte, List.getD_eq_getElem?_getD, List.getElem?_set_self hlast, Option.getD_some]

/-- A byte that takes part in the tests moves the difference by as much as it changes, up or down. -/
theorem checkGap_set {buf : List Byte} {len : FrameLen} {i : Nat} (h : buf.length = len.bytes) (hi : i < buf.length)
    (hfirst : len = .short → 1 ≤ i) (a : Byte) :
    checkGap (buf.set i a) len = checkGap buf len + (a - buf[i])
      ∨ checkGap (buf.set i a) len = checkGap buf len - (a - buf[i]) := by
  by_cases hlast : i = len.bytes - 1
  · left
    subst hlast
    have hbyte : checkByte buf len = buf[len.bytes - 1] := List.getD_eq_getElem _ _ hi
    rw [checkGap, checkGap, checkByte_set_last hi, checksum, summedBytes_set_last, ← checksum, hbyte]
    abel
  · right
    rw [checkGap, checkGap, checkByte_set_of_ne hlast, checksum_set h (by omega) hfirst]
    abel

/-! ## A flipped bit -/

/-- Flipping a bit that is clear adds its weight. -/
theorem xor_twoPow_of_clear {b : Byte} {k : Nat} (h : b.getLsbD k = false) :
    b ^^^ BitVec.twoPow 8 k = b + BitVec.twoPow 8 k := by
  have hdisjoint : b &&& BitVec.twoPow 8 k = 0 := by rw [BitVec.and_twoPow, h]; rfl
  rw [BitVec.add_eq_or_of_and_eq_zero _ _ hdisjoint]
  ext j hj
  by_cases hjk : k = j
  · subst hjk; simp [← BitVec.getLsbD_eq_getElem, h]
  · simp [BitVec.getElem_twoPow, Ne.symm hjk]

/-- Flipping a bit adds or subtracts its weight. -/
theorem flip_sub_self {k : Nat} (hk : k < 8) (b : Byte) :
    (b ^^^ BitVec.twoPow 8 k) - b = BitVec.twoPow 8 k ∨ (b ^^^ BitVec.twoPow 8 k) - b = -BitVec.twoPow 8 k := by
  cases hbit : b.getLsbD k with
  | false => left; rw [xor_twoPow_of_clear hbit]; exact add_sub_cancel_left _ _
  | true =>
    right
    have hclear : (b ^^^ BitVec.twoPow 8 k).getLsbD k = false := by simp [hbit, hk]
    have hback := xor_twoPow_of_clear hclear
    rw [BitVec.xor_assoc, BitVec.xor_self, BitVec.xor_zero] at hback
    rw [sub_eq_iff_eq_add, neg_add_eq_sub, eq_sub_iff_add_eq, ← hback]

/-- A weight leads from no origin's difference to an origin's difference: these differ by 0, 6 or 10. -/
theorem originGap_add_twoPow_ne (v w : Origin) (len : FrameLen) {k : Nat} (hk : k < 8) :
    originGap v len + BitVec.twoPow 8 k ≠ originGap w len := by
  revert k
  cases v <;> cases w <;> cases len <;> decide

/-- One flipped bit in a byte that takes part in the tests moves the difference by the bit's weight. -/
theorem checkGap_flip {buf : List Byte} {len : FrameLen} {i k : Nat} (h : buf.length = len.bytes) (hi : i < buf.length)
    (hfirst : len = .short → 1 ≤ i) (hk : k < 8) :
    checkGap (buf.set i (buf[i] ^^^ BitVec.twoPow 8 k)) len = checkGap buf len + BitVec.twoPow 8 k
      ∨ checkGap buf len = checkGap (buf.set i (buf[i] ^^^ BitVec.twoPow 8 k)) len + BitVec.twoPow 8 k := by
  obtain hset | hset := checkGap_set h hi hfirst (buf[i] ^^^ BitVec.twoPow 8 k) <;>
    obtain hflip | hflip := flip_sub_self hk buf[i] <;> rw [hset, hflip]
  · exact .inl rfl
  · exact .inr (neg_add_cancel_right _ _).symm
  · exact .inr (sub_add_cancel _ _).symm
  · exact .inl (sub_neg_eq_add _ _)

/-- Two whole candidates whose differences lie one bit's weight apart are not both valid. -/
theorem not_both_valid {buf flipped : List Byte} {len : FrameLen} {k : Nat} {v w : Origin} (h : buf.length = len.bytes)
    (hflipped : flipped.length = len.bytes) (hk : k < 8)
    (hgap : checkGap flipped len = checkGap buf len + BitVec.twoPow 8 k) (hv : validate buf len = some v) :
    validate flipped len ≠ some w := by
  rw [Ne, validate_eq_some_iff hflipped, hgap, (validate_eq_some_iff h v).mp hv]
  exact originGap_add_twoPow_ne v w len hk

theorem validate_flip_eq_none {buf : List Byte} {len : FrameLen} {i k : Nat} {v : Origin} (h : buf.length = len.bytes)
    (hv : validate buf len = some v) (hi : i < buf.length) (hfirst : len = .short → 1 ≤ i) (hk : k < 8) :
    validate (buf.set i (buf[i] ^^^ BitVec.twoPow 8 k)) len = none := by
  have hlen : (buf.set i (buf[i] ^^^ BitVec.twoPow 8 k)).length = len.bytes := by rw [List.length_set, h]
  rw [Option.eq_none_iff_forall_ne_some]
  intro w hw
  obtain hup | hdown := checkGap_flip h hi hfirst hk
  · exact not_both_valid h hlen hk hup hv hw
  · exact not_both_valid hlen h hk hdown hw hv

/-- Byte 0 of a short frame takes no part in either test (42_checksum.md R174). -/
theorem validate_short_cons (a b : Byte) (rest : List Byte) : validate (a :: rest) .short = validate (b :: rest) .short := rfl

/-- Settles O44: the corner cases by evaluation, the flipped bit from the difference it moves, byte 0 of a short frame from
its having no part in the tests. -/
theorem singleFlippedBitIsDetected : Obligations.SingleFlippedBitIsDetected := by
  refine ⟨by decide, fun buf len i k v h hv hi hfirst hk => ?_, fun buf k h => ?_⟩
  · have hi' : i < buf.length := h ▸ hi
    rw [List.modify_eq_set_get _ hi']
    exact validate_flip_eq_none h hv hi' hfirst hk
  · cases buf with
    | nil => rfl
    | cons b rest => exact validate_short_cons _ _ rest

end Sys2Proof.Machine
end

section
/-! Times and the transmit side (43_transmit.md): no recorded time lies in the future (R198), the collision window (R202, R203),
the levels and the duration of the waveform (R190, R191, R200), and the operations of a burst (R204, R207, R209). -/

namespace Sys2Proof.Machine

open Sys2Proof Sys2Proof.Safety

/-! ## Recorded times -/

theorem frReset_noFutureTimes {s : State} (h : NoFutureTimes s) : NoFutureTimes (frReset s) := by
  obtain ⟨hctrl, hheater, -, hend⟩ := h
  exact ⟨hctrl, hheater, Nat.zero_le _, hend⟩

/-- A frame that starts now has the time of now (41_framer.md R142). -/
theorem frStart_noFutureTimes {s : State} (h : NoFutureTimes s) : NoFutureTimes (frStart s) := by
  obtain ⟨hctrl, hheater, -, hend⟩ := h
  exact ⟨hctrl, hheater, le_rfl, hend⟩

/-- A frame end records no time for an origin but the frame's own (42_checksum.md R176). -/
theorem endFrame_noFutureTimes (trig : Trigger) {s : State} (h : NoFutureTimes s) : NoFutureTimes (endFrame trig s) := by
  obtain ⟨hctrl, hheater, hframe, hend⟩ := h
  obtain ⟨e, ck, lc, lh, he, -, hlc, hlh⟩ := endFrame_form trig s
  have hctrl' : lc.toNat ≤ (nowMs s).toNat := by
    rcases hlc with rfl | rfl <;> assumption
  have hheater' : lh.toNat ≤ (nowMs s).toNat := by
    rcases hlh with rfl | rfl <;> assumption
  rw [he]
  exact ⟨hctrl', hheater', Nat.zero_le _, hend⟩

theorem runSymbol_noFutureTimes (sym : Symbol) {s : State} (h : NoFutureTimes s) : NoFutureTimes (runSymbol sym s) := by
  apply runSymbol_induction sym s
  case unchanged => exact h
  case append =>
    intro b _
    rcases appendBit_cases b s with ⟨-, he⟩ | ⟨-, -, he⟩ | ⟨-, -, he⟩ <;> rw [he]
    · exact h
    · exact frReset_noFutureTimes h
    · exact h
  case frameEnd => exact fun _ => endFrame_noFutureTimes .idle h
  case discard => exact fun _ _ => frReset_noFutureTimes h
  case start => exact fun _ => frStart_noFutureTimes h
  case restart => exact fun _ => frStart_noFutureTimes (endFrame_noFutureTimes .preamble h)

/-- TX_END records the T of now (43_transmit.md R207). -/
theorem endBurst_noFutureTimes {s : State} (h : NoFutureTimes s) : NoFutureTimes (endBurst s) := by
  obtain ⟨hctrl, hheater, -, -⟩ := h
  exact ⟨hctrl, hheater, Nat.zero_le _, le_rfl⟩

/-- RESET records the time of now for the heater, and 0 for all else (44_host.md R236). -/
theorem resetBlock_noFutureTimes (s : State) : NoFutureTimes (resetBlock s) :=
  ⟨Nat.zero_le _, le_rfl, Nat.zero_le _, Nat.zero_le _⟩

theorem after_noFutureTimes (i : Instr) {s : State} (h : NoFutureTimes s) : NoFutureTimes (after i s) := by
  apply after_induction i s
  case held => exact h
  case edge => intro l _ _; rw [captureEdge_frame]; exact h
  case pop => exact fun _ _ sym => runSymbol_noFutureTimes sym (s := pqDrop s) h
  case idleEnd => exact fun _ _ => endFrame_noFutureTimes .synthIdle h
  case enqueue =>
    intro len pkt _
    rcases enqueuePacket_cases len pkt s with ⟨-, he⟩ | ⟨-, he⟩ <;> rw [he]
    · exact h
    · rw [txqPush_frame]; exact h
  case tick => intro _ _; rw [schedulerTick_frame]; exact h
  case segment => intros; exact h
  case burstEnd => intros; exact endBurst_noFutureTimes h
  case read => intros; exact h
  case write => intros; exact h
  case reset => intros; exact resetBlock_noFutureTimes s
  case illegal => intros; exact h
  case symbol => exact fun sym _ => runSymbol_noFutureTimes sym h

/-- What has happened has happened: TIME only moves T away from the recorded times (10_state.md R22). -/
theorem advanceTime_noFutureTimes (n : Nat) {s : State} (h : NoFutureTimes s) : NoFutureTimes (advanceTime n s) := by
  obtain ⟨hT, -⟩ := advanceTime_bounds n s
  have hnow : (nowMs s).toNat ≤ (nowMs (advanceTime n s)).toNat := by
    rw [nowMs_toNat, nowMs_toNat]; exact Nat.div_le_div_right hT
  obtain ⟨hctrl, hheater, hframe, hend⟩ := h
  rw [advanceTime_frame] at hnow hT ⊢
  exact ⟨hctrl.trans hnow, hheater.trans hnow, hframe.trans hnow, hend.trans hT⟩

/-- Settles O13: every operation records at most the time of now, and TIME does not run backwards. -/
theorem stepKeepsTimesInThePast : Obligations.StepKeepsTimesInThePast := fun _ _ =>
  step_preserves (P := NoFutureTimes) (fun _ _ hu => hu) (fun i _ hu => after_noFutureTimes i hu)
    fun n _ hu => advanceTime_noFutureTimes n hu

/-! ## Bursts are not aborted -/

/-- Settles O21: in Transmit mode only a segment and the burst's end write the burst; RESET is held. -/
theorem nothingAbortsABurst : Obligations.NothingAbortsABurst := by
  intro i s t h htx hnotEnd
  rw [exec_next h]
  apply after_burst_induction (P := fun t => t.mode = .transmit ∧ t.txPkt = s.txPkt ∧ t.txNseg = s.txNseg
    ∧ (i ≠ .txSegment → t.txSeg = s.txSeg ∧ t.txDeadline = s.txDeadline ∧ t.busDrive = s.busDrive)) i s
  case same =>
    exact fun t ht => ⟨ht.mode.trans htx, ht.txPkt, ht.txNseg, fun _ => ⟨ht.txSeg, ht.txDeadline, ht.busDrive⟩⟩
  case start => exact fun _ hr => mode_exclusive hr htx
  case segment => exact fun hi _ _ => ⟨htx, rfl, rfl, fun hne => absurd hi hne⟩
  case burstEnd => exact fun hi => absurd hi hnotEnd
  case reset => exact fun _ hr => mode_exclusive hr htx

/-! ## The collision window -/

/-- Where COLLISION_OK forbids a start: the controller has not timed out, and the estimated end of a burst does not lie before
its next frame (43_transmit.md R198). -/
theorem collisionOk_eq_false_iff (s : State) : collisionOk s = false ↔ s.ctrlKnown = true
    ∧ (nowMs s).toNat < s.lastCtrlMs.toNat + 90000 ∧ s.lastCtrlMs.toNat + 60000 ≤ (nowMs s).toNat + 4142 := by
  have hlimit : ((Config.ctrlTimeoutMs : Nat) : Int) = 90000 := rfl
  rw [collisionOk, Bool.or_eq_false_iff, Bool.or_eq_false_iff, Bool.not_eq_false', decide_eq_false_iff_not,
    decide_eq_false_iff_not, and_assoc, elapsed, hlimit, Config.txEstMs, Config.ctrlPeriodMs]
  exact and_congr_right fun _ => and_congr (by omega) (by omega)

/-- Settles O47: with a controller heard `e` ms ago, the two bounds of the window are bounds on `e`. -/
theorem collisionWindowIsExact : Obligations.CollisionWindowIsExact := by
  intro s hknown hpast
  rw [collisionOk_eq_false_iff]
  constructor
  · rintro ⟨-, htimeout, hnext⟩
    omega
  · rintro ⟨hlow, hhigh⟩
    exact ⟨hknown, by omega, by omega⟩

/-- A tick that COLLISION_OK forbids to start a burst only clears `tx_notify` (43_transmit.md R196, R197). -/
theorem exec_txTick_of_collision {s : State} (hmode : s.mode = .receive) (h : collisionOk s = false) :
    exec .txTick s = .next { s with txNotify := false } := by
  have hstart : startOk s = false := by rw [startOk, h, Bool.and_false]
  rcases schedulerTick_cases s with ⟨hok, -⟩ | ⟨-, htick⟩
  · exact nomatch hstart.symm.trans hok
  · rw [exec_txTick hmode, htick]

/-- Settles O48: so close before the next controller frame the time lies in the collision window. -/
theorem noBurstBeforeAnExpectedControllerFrame : Obligations.NoBurstBeforeAnExpectedControllerFrame := by
  rintro s expected hknown rfl hahead hclose
  have hnext : s.lastCtrlMs.toNat + 60000 < (nowMs s).toNat + 4142 := by omega
  have htimeout : (nowMs s).toNat < s.lastCtrlMs.toNat + 90000 := by omega
  have hcollision := (collisionOk_eq_false_iff s).2 ⟨hknown, htimeout, hnext.le⟩
  exact ⟨hnext, htimeout, hcollision, fun hmode => exec_txTick_of_collision hmode hcollision⟩

/-! ## The waveform -/

/-- Settles O50: the burst is its segments in order, and NSEG evaluates. -/
theorem segmentsFlattenTheWaveform : Obligations.SegmentsFlattenTheWaveform :=
  ⟨burst_eq_map_segAt, rfl, rfl⟩

/-- In every copy the even segments are LOW and the odd ones HIGH (43_transmit.md R191). -/
theorem segAt_copy_level (p : Packet) (r : Nat) {j : Nat} (hj : j < segsPerCopy p.len) :
    (segAt p (segsPerCopy p.len * r + j)).1 = if j % 2 = 0 then .low else .high := by
  have hcopy : segsPerCopy p.len = 16 * p.len.bytes + 4 := rfl
  rw [segAt_copy p r hj]
  by_cases hpreLow : j = 0
  · rw [if_pos hpreLow]
    exact (if_pos (by omega)).symm
  by_cases hpreHigh : j = 1
  · rw [if_neg hpreLow, if_pos hpreHigh]
    exact (if_neg (by omega)).symm
  rw [if_neg hpreLow, if_neg hpreHigh]
  by_cases hbits : j < 16 * p.len.bytes + 2
  · have hparity : (j - 2) % 2 = 0 ↔ j % 2 = 0 := by omega
    rw [if_pos hbits, apply_ite Prod.fst]
    simp only [hparity]
  rw [if_neg hbits]
  by_cases hcloseLow : j = 16 * p.len.bytes + 2
  · rw [if_pos hcloseLow]
    exact (if_pos (by omega)).symm
  · rw [if_neg hcloseLow, apply_ite Prod.fst, ite_self]
    exact (if_neg (by omega)).symm

/-- Settles O51: a copy has an even number of segments, so the parity of an index is that of its place in its copy. -/
theorem segmentsAlternate : Obligations.SegmentsAlternate := by
  intro p i _
  have heven : 2 ∣ segsPerCopy p.len := by rw [segsPerCopy]; omega
  have hpos : 0 < segsPerCopy p.len := by rw [segsPerCopy]; omega
  have hlevel := segAt_copy_level p (i / segsPerCopy p.len) (Nat.mod_lt i hpos)
  rwa [Nat.div_add_mod, Nat.mod_mod_of_dvd i heven] at hlevel

theorem onesOf_le (p : Packet) : onesOf p ≤ 8 * p.len.bytes := by
  rw [onesOf_eq, ← packetBits_length]; exact List.count_le_length

theorem burstUs_eq (p : Packet) :
    burstUs p = 8 * (14000 + 16000 * p.len.bytes + 2000 * onesOf p) + 7 * 101000 + 251000 := rfl

theorem burstUs_of_onesOf {p : Packet} {n : Nat} (h : onesOf p = n) :
    burstUs p = 8 * (14000 + 16000 * p.len.bytes + 2000 * n) + 7 * 101000 + 251000 := by rw [burstUs_eq, h]

/-- The shortest burst has 9 bytes of zeros, the longest one 12 bytes of ones (43_transmit.md R200). -/
theorem burstUs_bounds (p : Packet) : 2222000 ≤ burstUs p ∧ burstUs p ≤ 4142000 := by
  have hones := onesOf_le p
  rw [burstUs_eq]
  have hlen : 9 ≤ p.len.bytes ∧ p.len.bytes ≤ 12 := by cases p.len <;> decide
  omega

/-- Settles O52: the sum of the waveform is BURST_US, whose formula gives the bounds and the four extreme values. -/
theorem burstDuration : Obligations.BurstDuration := by
  refine ⟨fun p => ?_, burstUs_of_onesOf (n := 96) rfl, burstUs_of_onesOf (n := 0) rfl,
    burstUs_of_onesOf (n := 72) rfl, burstUs_of_onesOf (n := 0) rfl⟩
  obtain ⟨hmin, hmax⟩ := burstUs_bounds p
  have hsum : burstUs p = ((burst p).map Prod.snd).sum := burstUs_eq_totalUs p
  exact ⟨hsum.symm.trans (burstUs_eq p), hsum, hmin, hmax, hmax⟩

/-! ## The operations of a burst -/

/-- A deadline inside 64 bits is the exact sum (00_scope.md R11). -/
theorem deadlineAfter_toNat {deadline : Time} {dur : Nat} (h : deadline.toNat + dur < 2 ^ 64) :
    (deadlineAfter deadline dur).toNat = deadline.toNat + dur := by
  rw [deadlineAfter, if_pos h, BitVec.toNat_add, BitVec.toNat_ofNat, Nat.add_mod_mod, Nat.mod_eq_of_lt h]

/-- TX_SEGMENT where a segment is due (43_transmit.md R204). -/
theorem exec_txSegment {s : State} (hmode : s.mode = .transmit) (hseg : s.txSeg.toNat < s.txNseg.toNat)
    (hdue : s.timeUs = s.txDeadline) : exec .txSegment s = .next (driveSegment s) := by
  rw [exec_eq, after, if_pos ((txSegmentEnabled_iff s).2 ⟨hmode, hseg, hdue⟩)]

/-- TX_END where the end of the burst is due (43_transmit.md R207). -/
theorem exec_txEnd {s : State} (hmode : s.mode = .transmit) (hall : s.txSeg = s.txNseg) (hdue : s.timeUs = s.txDeadline) :
    exec .txEnd s = .next (endBurst s) := by
  rw [exec_eq, after, if_pos ((txEndEnabled_iff s).2 ⟨hmode, hall, hdue⟩)]

/-- Settles O53: the segment is due, so TX_SEGMENT drives it. -/
theorem segmentIsDriven : Obligations.SegmentIsDriven := by
  intro s lvl dur hsegAt hmode hseg hdue
  refine ⟨driveSegment s, exec_txSegment hmode hseg hdue, fun hrange => ?_, ?_⟩
  · rw [driveSegment_txDeadline, hsegAt]
    exact deadlineAfter_toNat hrange
  · simp only [driveSegment, emit, hsegAt]
    cases lvl <;> rfl

/-- Settles O54: the end is due, so TX_END runs, and it writes what R207 lists. -/
theorem endReturnsToReceive : Obligations.EndReturnsToReceive := fun _ hmode hall hdue =>
  exec_txEnd hmode hall hdue

end Sys2Proof.Machine
end

section
/-! What HOST writes through the registers (44_host.md R234). -/

namespace Sys2Proof.Machine

open Sys2Proof

/-- `t` differs from `s` only in what the registers let HOST write: `passive`, and the output. -/
def RegisterWritesOnly (s t : State) : Prop := t = { s with passive := t.passive, history := t.history }

/-- An output writes the history alone (10_state.md R45). -/
theorem emit_registerWritesOnly (e : Event) (s : State) : RegisterWritesOnly s (emit e s) := rfl

/-- REG_WRITE writes `passive` through CTRL, and nothing through any other register (44_host.md R232, R233). -/
theorem writeRegister_registerWritesOnly (ridx : BitVec 4) (d : Word) (s : State) :
    RegisterWritesOnly s (writeRegister ridx d s) := by
  rw [writeRegister]; split <;> rfl

/-- HOST's operations besides TX_ENQUEUE and RESET are a register read, a register write and an illegal word. -/
theorem after_registerWritesOnly {i : Instr} (hhost : i.agent = .host) (henqueue : ∀ len pkt, i ≠ .txEnqueue len pkt)
    (hreset : i ≠ .reset) (s : State) : RegisterWritesOnly s (after i s) := by
  cases i with
  | regRead r => exact emit_registerWritesOnly (.regValue (registerValue r s)) s
  | regWrite r d => exact writeRegister_registerWritesOnly r d s
  | illegal w => exact emit_registerWritesOnly (.diag .illegalCmd .none 0) s
  | txEnqueue len pkt => exact absurd rfl (henqueue len pkt)
  | reset => exact absurd rfl hreset
  | edge | rxPop | rxIdleCheck | txTick | txSegment | txEnd | invalid | bit0 | bit1 | preamble | idle => cases hhost

/-- Settles O25, operation by operation of HOST. -/
theorem hostWritesOnlyPassive : Obligations.HostWritesOnlyPassive := by
  intro i s t h hhost henqueue hreset
  rw [exec_next h]
  exact after_registerWritesOnly hhost henqueue hreset s

end Sys2Proof.Machine
end

section
/-! Exceptions (60_exceptions.md): every step completes unless the decoder refuses the code it is offered (R250, R87), and the
layout of the diagnostic word (R253). -/

namespace Sys2Proof.Machine

open Sys2Proof

/-! ## The completion of a step (R250) -/

/-- The codes below the reserved ones are the codes of the five symbols (30_encoding.md R86). -/
theorem exists_symbol_of_code_lt {code : BitVec 3} (h : code.toNat < 5) : ∃ sym : Symbol, sym.code = code := by
  match hn : code.toNat, h with
  | 0, _ => exact ⟨.invalid, BitVec.eq_of_toNat_eq hn.symm⟩
  | 1, _ => exact ⟨.bit0, BitVec.eq_of_toNat_eq hn.symm⟩
  | 2, _ => exact ⟨.bit1, BitVec.eq_of_toNat_eq hn.symm⟩
  | 3, _ => exact ⟨.preamble, BitVec.eq_of_toNat_eq hn.symm⟩
  | 4, _ => exact ⟨.idle, BitVec.eq_of_toNat_eq hn.symm⟩

/-- The decoder rejects nothing but a reserved symbol code (30_encoding.md R87, R93). -/
theorem decode_ok_or_reserved (op : RawOp) :
    (∃ i, decode op = .ok i) ∨ ∃ code : BitVec 3, op = .symbol code ∧ 5 ≤ code.toNat := by
  cases op with
  | command w d pkt => exact .inl ⟨decodeCommand w d pkt, rfl⟩
  | symbol code =>
    rcases Nat.lt_or_ge code.toNat 5 with hlt | hreserved
    · obtain ⟨sym, rfl⟩ := exists_symbol_of_code_lt hlt
      exact .inl ⟨symbolInstr sym, decode_symbol_code sym⟩
    · exact .inr ⟨code, rfl, hreserved⟩

/-- RX_DRAIN takes a record or is done (30_encoding.md R96). -/
theorem runDrain_completes (rest : List AgendaItem) (s : State) : ∃ t, runDrain rest s = .next t := by
  rw [runDrain]
  split
  · exact ⟨_, exec_eq .rxPop s⟩
  · exact ⟨_, rfl⟩

/-- TX_RUN is done, lets time pass to the deadline, or takes the step that is due (30_encoding.md R96). -/
theorem runBurst_completes (rest : List AgendaItem) (s : State) : ∃ t, runBurst rest s = .next t := by
  rw [runBurst]
  split
  · exact ⟨_, rfl⟩
  split
  · exact ⟨_, rfl⟩
  split
  · exact ⟨_, exec_eq .txSegment s⟩
  · exact ⟨_, exec_eq .txEnd _⟩

/-- Settles O17, item by item of the agenda: an offer alone can be refused, and only where its code is reserved. -/
theorem onlyReservedSymbolsStop : Obligations.OnlyReservedSymbolsStop := by
  intro s
  rcases hagenda : s.agenda with _ | ⟨item, rest⟩
  · exact .inl ⟨s, by rw [step, takeStep, hagenda]⟩
  cases item with
  | offer op =>
    rcases decode_ok_or_reserved op with ⟨i, hi⟩ | ⟨code, rfl, hcode⟩
    · exact .inl ⟨_, (step_of_offer hagenda).trans ((runRaw_of_decode hi _).trans (exec_eq i _))⟩
    · exact .inr ⟨code, rest, rfl, hcode, reservedSymbolCodesAreRefused.1 code s rest hagenda hcode⟩
  | wait us => exact .inl ⟨_, by rw [step, takeStep, hagenda]⟩
  | atTime t => exact .inl ⟨_, by rw [step, takeStep, hagenda]⟩
  | rxDrain =>
    rw [step, takeStep, hagenda]
    exact .inl (runDrain_completes rest s)
  | txRun =>
    rw [step_txRun hagenda]
    exact .inl (runBurst_completes rest s)

/-! ## The diagnostic word (R253) -/

/-- The diagnostic word as a number: its three 4-bit fields lie side by side (60_exceptions.md R253). -/
theorem diagWord_toNat (code : DiagCode) (trig : Trigger) (len : BitVec 4) :
    (diagWord code trig len).toNat = code.code.toNat + 16 * trig.code.toNat + 256 * len.toNat := by
  have widened (field : BitVec 4) : (field.setWidth 32).toNat = field.toNat := BitVec.toNat_setWidth_of_le (by decide)
  have below (field : BitVec 4) : (field.setWidth 32).toNat < 2 ^ 4 := (widened field).trans_lt field.isLt
  obtain ⟨htrig, belowLen⟩ := or_shiftLeft_toNat (below code.code) (below trig.code) (by decide)
  obtain ⟨hlen, -⟩ := or_shiftLeft_toNat belowLen (below len) (by decide)
  rw [diagWord, hlen, htrig, widened, widened, widened]
  omega

/-- Settles O59: the fields as numbers, and the example evaluated. -/
theorem diagnosticWordFields : Obligations.DiagnosticWordFields := ⟨diagWord_toNat, by decide⟩

end Sys2Proof.Machine
end

section
/-! What is enabled right after a reset (70_reset_and_hazards.md R281). -/

namespace Sys2Proof.Machine

open Sys2Proof Sys2Proof.Safety

/-- RX_IDLE_CHECK is enabled on an empty ring (41_framer.md R150). -/
theorem enabled_rxIdleCheck {s : State} (hempty : s.pqCount = 0) : enabled .rxIdleCheck s = true := by
  rw [enabled, rxIdleCheckEnabled, decide_eq_true hempty]

/-- TX_TICK is enabled in Receive mode (43_transmit.md R196). -/
theorem enabled_txTick {s : State} (hmode : s.mode = .receive) : enabled .txTick s = true := by
  rw [enabled, txTickEnabled, decide_eq_true hmode]

/-- RESET is enabled in Receive mode (44_host.md R236). -/
theorem enabled_reset {s : State} (hmode : s.mode = .receive) : enabled .reset s = true := by
  rw [enabled, resetEnabled, decide_eq_true hmode]

/-- In Receive mode every operation of CAP and of HOST is enabled: of these RESET alone has a condition. -/
theorem enabled_of_cap_or_host {i : Instr} {s : State} (hmode : s.mode = .receive)
    (hagent : i.agent = .cap ∨ i.agent = .host) : enabled i s = true := by
  cases i with
  | reset => exact enabled_reset hmode
  | edge | txEnqueue | regRead | regWrite | illegal => rfl
  | rxPop | rxIdleCheck | txTick | txSegment | txEnd | invalid | bit0 | bit1 | preamble | idle =>
    exact hagent.elim nofun nofun

/-- A passive block never starts a burst (43_transmit.md R197). -/
theorem startOk_of_passive {s : State} (hpassive : s.passive = true) : startOk s = false := by
  rw [← Bool.not_eq_true, startOk_iff]
  exact fun ⟨hactive, _⟩ => nomatch hpassive.symm.trans hactive

/-- The scheduler of a passive block with no notification pending changes nothing (43_transmit.md R196, R197). -/
theorem schedulerTick_of_passive {s : State} (hpassive : s.passive = true) (hnotify : s.txNotify = false) :
    schedulerTick s = s := by
  rcases schedulerTick_cases s with ⟨hok, -⟩ | ⟨-, hclears⟩
  · exact nomatch (startOk_of_passive hpassive).symm.trans hok
  · rw [hclears, ← hnotify]

/-- Settles O8: after a reset the mode is Receive, the ring is empty, the framer is Idle and the block is passive. -/
theorem enabledAfterReset : Obligations.EnabledAfterReset := by
  intro tr s hreset
  obtain ⟨hmode, -, -, -, -, hempty, -, -, -, -, -, hframerIdle, -, -, -, -, -, -, -, hnotify, -, -, -, -, -, -,
    hpassive, -⟩ := hreset
  refine ⟨fun i hagent => enabled_of_cap_or_host hmode (hagent.imp_right And.left), enabled_rxIdleCheck hempty,
    exec_rxIdleCheck_of_idle hframerIdle, enabled_txTick hmode, ?txTick, (enabled_rxPop_eq_false_iff s).2 hempty,
    (enabled_txSegment_eq_false_iff s).2 fun ⟨htx, _⟩ => mode_exclusive hmode htx,
    (enabled_txEnd_eq_false_iff s).2 fun ⟨htx, _⟩ => mode_exclusive hmode htx⟩
  case txTick => rw [exec_txTick hmode, schedulerTick_of_passive hpassive hnotify]

end Sys2Proof.Machine
end
